-- ==== Sys2Proof/Word.lean ====
section
/-! DEFINITION. The two word types of the hardware (spec/00_scope.md, R6, R11): data is 8 bits wide, addresses and the
program counter are 16 bits wide. -/

namespace Sys2Proof

/-- A byte: an unsigned integer 0 to 255 (R11). -/
abbrev Byte := BitVec 8

/-- A word: an unsigned integer 0 to 65,535 (R11). -/
abbrev Word := BitVec 16

end Sys2Proof
end

