-- ==== Sys2Proof/Syntax.lean ====
section
/-! DEFINITION. The instruction set as syntax (spec/30_encoding.md, R120 to R131, and the rows of
spec/opcode_table.json): the 56 mnemonics, the thirteen addressing modes, and `Instr`, one constructor for each of the
151 populated slots, with the operand bytes the slot carries (`b1` for the one-byte modes, the assembled word
`addr` = b2:b1 for the two-byte modes, R124). -/

namespace Sys2Proof

/-- The 56 operations (R130). -/
inductive Mnemonic where
  | brk | ora | asl | php | bpl | clc | jsr | and | bit | rol | plp | bmi | sec | rti | eor | lsr | pha | jmp
  | bvc | cli | rts | adc | ror | pla | bvs | sei | sta | sty | stx | dey | txa | bcc | tya | txs | ldy | lda
  | ldx | tay | tax | bcs | clv | tsx | cpy | cmp | dec | iny | dex | bne | cld | cpx | sbc | inc | inx | nop
  | beq | sed
  deriving DecidableEq, Repr

/-- The thirteen addressing modes of R122. -/
inductive Mode where
  | imp | acc | imm | zp | zpx | zpy | rel | izx | izy | abs | abx | aby | ind
  deriving DecidableEq, Repr

/-- One constructor per populated slot (R130). The suffix is the addressing mode; IMP and REL forms, and JSR (ABS
only), carry none. `b1` is the operand byte; `addr` is the word b2 * 256 + b1 (R124). -/
inductive Instr where
  -- ADC: rule R190 of spec/41_arithmetic.md
  | adcImm (b1 : Byte)
  | adcZp (b1 : Byte)
  | adcZpx (b1 : Byte)
  | adcIzx (b1 : Byte)
  | adcIzy (b1 : Byte)
  | adcAbs (addr : Word)
  | adcAbx (addr : Word)
  | adcAby (addr : Word)
  -- SBC: rule R191 of spec/41_arithmetic.md
  | sbcImm (b1 : Byte)
  | sbcZp (b1 : Byte)
  | sbcZpx (b1 : Byte)
  | sbcIzx (b1 : Byte)
  | sbcIzy (b1 : Byte)
  | sbcAbs (addr : Word)
  | sbcAbx (addr : Word)
  | sbcAby (addr : Word)
  -- AND: rule R200 of spec/42_logic_shift_rotate.md
  | andImm (b1 : Byte)
  | andZp (b1 : Byte)
  | andZpx (b1 : Byte)
  | andIzx (b1 : Byte)
  | andIzy (b1 : Byte)
  | andAbs (addr : Word)
  | andAbx (addr : Word)
  | andAby (addr : Word)
  -- ORA: rule R201 of spec/42_logic_shift_rotate.md
  | oraImm (b1 : Byte)
  | oraZp (b1 : Byte)
  | oraZpx (b1 : Byte)
  | oraIzx (b1 : Byte)
  | oraIzy (b1 : Byte)
  | oraAbs (addr : Word)
  | oraAbx (addr : Word)
  | oraAby (addr : Word)
  -- EOR: rule R202 of spec/42_logic_shift_rotate.md
  | eorImm (b1 : Byte)
  | eorZp (b1 : Byte)
  | eorZpx (b1 : Byte)
  | eorIzx (b1 : Byte)
  | eorIzy (b1 : Byte)
  | eorAbs (addr : Word)
  | eorAbx (addr : Word)
  | eorAby (addr : Word)
  -- ASL: rule R203 of spec/42_logic_shift_rotate.md
  | aslAcc
  | aslZp (b1 : Byte)
  | aslZpx (b1 : Byte)
  | aslAbs (addr : Word)
  | aslAbx (addr : Word)
  -- LSR: rule R204 of spec/42_logic_shift_rotate.md
  | lsrAcc
  | lsrZp (b1 : Byte)
  | lsrZpx (b1 : Byte)
  | lsrAbs (addr : Word)
  | lsrAbx (addr : Word)
  -- ROL: rule R205 of spec/42_logic_shift_rotate.md
  | rolAcc
  | rolZp (b1 : Byte)
  | rolZpx (b1 : Byte)
  | rolAbs (addr : Word)
  | rolAbx (addr : Word)
  -- ROR: rule R206 of spec/42_logic_shift_rotate.md
  | rorAcc
  | rorZp (b1 : Byte)
  | rorZpx (b1 : Byte)
  | rorAbs (addr : Word)
  | rorAbx (addr : Word)
  -- CMP: rule R220 of spec/43_compare_bit.md
  | cmpImm (b1 : Byte)
  | cmpZp (b1 : Byte)
  | cmpZpx (b1 : Byte)
  | cmpIzx (b1 : Byte)
  | cmpIzy (b1 : Byte)
  | cmpAbs (addr : Word)
  | cmpAbx (addr : Word)
  | cmpAby (addr : Word)
  -- CPX: rule R221 of spec/43_compare_bit.md
  | cpxImm (b1 : Byte)
  | cpxZp (b1 : Byte)
  | cpxAbs (addr : Word)
  -- CPY: rule R222 of spec/43_compare_bit.md
  | cpyImm (b1 : Byte)
  | cpyZp (b1 : Byte)
  | cpyAbs (addr : Word)
  -- BIT: rule R223 of spec/43_compare_bit.md
  | bitZp (b1 : Byte)
  | bitAbs (addr : Word)
  -- BCC: rule R231 of spec/44_branches_jumps.md
  | bcc (b1 : Byte)
  -- BCS: rule R232 of spec/44_branches_jumps.md
  | bcs (b1 : Byte)
  -- BEQ: rule R233 of spec/44_branches_jumps.md
  | beq (b1 : Byte)
  -- BMI: rule R234 of spec/44_branches_jumps.md
  | bmi (b1 : Byte)
  -- BNE: rule R235 of spec/44_branches_jumps.md
  | bne (b1 : Byte)
  -- BPL: rule R236 of spec/44_branches_jumps.md
  | bpl (b1 : Byte)
  -- BVC: rule R237 of spec/44_branches_jumps.md
  | bvc (b1 : Byte)
  -- BVS: rule R238 of spec/44_branches_jumps.md
  | bvs (b1 : Byte)
  -- JMP: rule R239 of spec/44_branches_jumps.md
  | jmpAbs (addr : Word)
  | jmpInd (addr : Word)
  -- PHA: rule R250 of spec/45_stack_subroutine.md
  | pha
  -- PLA: rule R251 of spec/45_stack_subroutine.md
  | pla
  -- PHP: rule R252 of spec/45_stack_subroutine.md
  | php
  -- PLP: rule R253 of spec/45_stack_subroutine.md
  | plp
  -- JSR: rule R254 of spec/45_stack_subroutine.md
  | jsr (addr : Word)
  -- RTS: rule R255 of spec/45_stack_subroutine.md
  | rts
  -- RTI: rule R256 of spec/45_stack_subroutine.md
  | rti
  -- BRK: rule R257 of spec/45_stack_subroutine.md
  | brk
  -- TAX: rule R270 of spec/46_transfers.md
  | tax
  -- TAY: rule R271 of spec/46_transfers.md
  | tay
  -- TXA: rule R272 of spec/46_transfers.md
  | txa
  -- TYA: rule R273 of spec/46_transfers.md
  | tya
  -- TSX: rule R274 of spec/46_transfers.md
  | tsx
  -- TXS: rule R275 of spec/46_transfers.md
  | txs
  -- LDA: rule R280 of spec/47_load_store.md
  | ldaImm (b1 : Byte)
  | ldaZp (b1 : Byte)
  | ldaZpx (b1 : Byte)
  | ldaIzx (b1 : Byte)
  | ldaIzy (b1 : Byte)
  | ldaAbs (addr : Word)
  | ldaAbx (addr : Word)
  | ldaAby (addr : Word)
  -- LDX: rule R281 of spec/47_load_store.md
  | ldxImm (b1 : Byte)
  | ldxZp (b1 : Byte)
  | ldxZpy (b1 : Byte)
  | ldxAbs (addr : Word)
  | ldxAby (addr : Word)
  -- LDY: rule R282 of spec/47_load_store.md
  | ldyImm (b1 : Byte)
  | ldyZp (b1 : Byte)
  | ldyZpx (b1 : Byte)
  | ldyAbs (addr : Word)
  | ldyAbx (addr : Word)
  -- STA: rule R283 of spec/47_load_store.md
  | staZp (b1 : Byte)
  | staZpx (b1 : Byte)
  | staIzx (b1 : Byte)
  | staIzy (b1 : Byte)
  | staAbs (addr : Word)
  | staAbx (addr : Word)
  | staAby (addr : Word)
  -- STX: rule R284 of spec/47_load_store.md
  | stxZp (b1 : Byte)
  | stxZpy (b1 : Byte)
  | stxAbs (addr : Word)
  -- STY: rule R285 of spec/47_load_store.md
  | styZp (b1 : Byte)
  | styZpx (b1 : Byte)
  | styAbs (addr : Word)
  -- INC: rule R290 of spec/48_incdec_flags_nop.md
  | incZp (b1 : Byte)
  | incZpx (b1 : Byte)
  | incAbs (addr : Word)
  | incAbx (addr : Word)
  -- DEC: rule R291 of spec/48_incdec_flags_nop.md
  | decZp (b1 : Byte)
  | decZpx (b1 : Byte)
  | decAbs (addr : Word)
  | decAbx (addr : Word)
  -- INX: rule R292 of spec/48_incdec_flags_nop.md
  | inx
  -- INY: rule R293 of spec/48_incdec_flags_nop.md
  | iny
  -- DEX: rule R294 of spec/48_incdec_flags_nop.md
  | dex
  -- DEY: rule R295 of spec/48_incdec_flags_nop.md
  | dey
  -- CLC: rule R296 of spec/48_incdec_flags_nop.md
  | clc
  -- SEC: rule R297 of spec/48_incdec_flags_nop.md
  | sec
  -- CLI: rule R298 of spec/48_incdec_flags_nop.md
  | cli
  -- SEI: rule R299 of spec/48_incdec_flags_nop.md
  | sei
  -- CLD: rule R300 of spec/48_incdec_flags_nop.md
  | cld
  -- SED: rule R301 of spec/48_incdec_flags_nop.md
  | sed
  -- CLV: rule R302 of spec/48_incdec_flags_nop.md
  | clv
  -- NOP: rule R303 of spec/48_incdec_flags_nop.md
  | nop
  deriving DecidableEq, Repr

/-- The operands that name a byte of memory: R165, R166, R167, R169, R170, R172, R173. -/
inductive MemOperand where
  | zp (b1 : Byte)
  | zpx (b1 : Byte)
  | zpy (b1 : Byte)
  | abs (addr : Word)
  | abx (addr : Word)
  | aby (addr : Word)
  | izx (b1 : Byte)
  | izy (b1 : Byte)
  deriving DecidableEq, Repr

/-- The operand of an instruction that only reads it (R174): an immediate byte or a byte of memory. -/
inductive Source where
  | imm (b1 : Byte)
  | mem (m : MemOperand)
  deriving DecidableEq, Repr

/-- The operand of a read-modify-write instruction (R174, R176): the accumulator or a byte of memory. An immediate
can not be a destination (R164), so there is no such form. -/
inductive Place where
  | acc
  | mem (m : MemOperand)
  deriving DecidableEq, Repr

end Sys2Proof
end

