-- ==== Sys2Proof/Decode.lean ====
section
/-! DEFINITION. The instruction metadata table, the decoder and the encoder (spec/30_encoding.md, R120 to R137). The
decoder is total on any bytes: it answers `none` where the bytes are no instruction, naming why in `decodeError`. The
opcode byte values, modes and cycle numbers are those of spec/opcode_table.json, which R129 makes normative (the spec
marks them as general knowledge, D2 and D3: notes/assumptions/1.md). -/

namespace Sys2Proof

/-- The low byte of a word (R84: the byte at the lower address). -/
def loByte (w : Word) : Byte := w.setWidth 8

/-- The high byte of a word. -/
def hiByte (w : Word) : Byte := (w >>> 8).setWidth 8

/-- The word hi * 256 + lo, written as the concatenation of hi and lo in the spec (R10, R84, R124). -/
def mkWord (hi lo : Byte) : Word := (hi.setWidth 16 <<< 8) ||| lo.setWidth 16

/-- How many operand bytes a mode carries (R122). -/
def Mode.operandBytes : Mode → Nat
  | .imp | .acc => 0
  | .imm | .zp | .zpx | .zpy | .rel | .izx | .izy => 1
  | .abs | .abx | .aby | .ind => 2

/-- The length in bytes of an instruction of a mode (R123). -/
def Mode.length (m : Mode) : Nat := 1 + m.operandBytes

/-- A populated slot of the metadata table (R125): the operation, the mode, the base cycles, and whether a page
crossing costs an extra cycle. -/
structure Slot where
  mnemonic : Mnemonic
  mode : Mode
  baseCycles : Nat
  extraCycle : Bool
  deriving DecidableEq, Repr

/-- A populated slot, written shortly. -/
def slot (mn : Mnemonic) (md : Mode) (base : Nat) (extra : Bool) : Option Slot := some ⟨mn, md, base, extra⟩

/-- Row $0x of the map (R130, R131): opcode bytes $00 to $0F. -/
def metadataRow0 : List (Option Slot) :=
  [ slot .brk .imp 7 false, slot .ora .izx 6 false, none, none,
    none, slot .ora .zp 3 false, slot .asl .zp 5 false, none,
    slot .php .imp 3 false, slot .ora .imm 2 false, slot .asl .acc 2 false, none,
    none, slot .ora .abs 4 false, slot .asl .abs 6 false, none ]

/-- Row $1x of the map (R130, R131): opcode bytes $10 to $1F. -/
def metadataRow1 : List (Option Slot) :=
  [ slot .bpl .rel 2 false, slot .ora .izy 5 true, none, none,
    none, slot .ora .zpx 4 false, slot .asl .zpx 6 false, none,
    slot .clc .imp 2 false, slot .ora .aby 4 true, none, none,
    none, slot .ora .abx 4 true, slot .asl .abx 7 false, none ]

/-- Row $2x of the map (R130, R131): opcode bytes $20 to $2F. -/
def metadataRow2 : List (Option Slot) :=
  [ slot .jsr .abs 6 false, slot .and .izx 6 false, none, none,
    slot .bit .zp 3 false, slot .and .zp 3 false, slot .rol .zp 5 false, none,
    slot .plp .imp 4 false, slot .and .imm 2 false, slot .rol .acc 2 false, none,
    slot .bit .abs 4 false, slot .and .abs 4 false, slot .rol .abs 6 false, none ]

/-- Row $3x of the map (R130, R131): opcode bytes $30 to $3F. -/
def metadataRow3 : List (Option Slot) :=
  [ slot .bmi .rel 2 false, slot .and .izy 5 true, none, none,
    none, slot .and .zpx 4 false, slot .rol .zpx 6 false, none,
    slot .sec .imp 2 false, slot .and .aby 4 true, none, none,
    none, slot .and .abx 4 true, slot .rol .abx 7 false, none ]

/-- Row $4x of the map (R130, R131): opcode bytes $40 to $4F. -/
def metadataRow4 : List (Option Slot) :=
  [ slot .rti .imp 6 false, slot .eor .izx 6 false, none, none,
    none, slot .eor .zp 3 false, slot .lsr .zp 5 false, none,
    slot .pha .imp 3 false, slot .eor .imm 2 false, slot .lsr .acc 2 false, none,
    slot .jmp .abs 3 false, slot .eor .abs 4 false, slot .lsr .abs 6 false, none ]

/-- Row $5x of the map (R130, R131): opcode bytes $50 to $5F. -/
def metadataRow5 : List (Option Slot) :=
  [ slot .bvc .rel 2 false, slot .eor .izy 5 true, none, none,
    none, slot .eor .zpx 4 false, slot .lsr .zpx 6 false, none,
    slot .cli .imp 2 false, slot .eor .aby 4 true, none, none,
    none, slot .eor .abx 4 true, slot .lsr .abx 7 false, none ]

/-- Row $6x of the map (R130, R131): opcode bytes $60 to $6F. -/
def metadataRow6 : List (Option Slot) :=
  [ slot .rts .imp 6 false, slot .adc .izx 6 false, none, none,
    none, slot .adc .zp 3 false, slot .ror .zp 5 false, none,
    slot .pla .imp 4 false, slot .adc .imm 2 false, slot .ror .acc 2 false, none,
    slot .jmp .ind 5 false, slot .adc .abs 4 false, slot .ror .abs 6 false, none ]

/-- Row $7x of the map (R130, R131): opcode bytes $70 to $7F. -/
def metadataRow7 : List (Option Slot) :=
  [ slot .bvs .rel 2 false, slot .adc .izy 5 true, none, none,
    none, slot .adc .zpx 4 false, slot .ror .zpx 6 false, none,
    slot .sei .imp 2 false, slot .adc .aby 4 true, none, none,
    none, slot .adc .abx 4 true, slot .ror .abx 7 false, none ]

/-- Row $8x of the map (R130, R131): opcode bytes $80 to $8F. -/
def metadataRow8 : List (Option Slot) :=
  [ none, slot .sta .izx 6 false, none, none,
    slot .sty .zp 3 false, slot .sta .zp 3 false, slot .stx .zp 3 false, none,
    slot .dey .imp 2 false, none, slot .txa .imp 2 false, none,
    slot .sty .abs 4 false, slot .sta .abs 4 false, slot .stx .abs 4 false, none ]

/-- Row $9x of the map (R130, R131): opcode bytes $90 to $9F. -/
def metadataRow9 : List (Option Slot) :=
  [ slot .bcc .rel 2 false, slot .sta .izy 6 false, none, none,
    slot .sty .zpx 4 false, slot .sta .zpx 4 false, slot .stx .zpy 4 false, none,
    slot .tya .imp 2 false, slot .sta .aby 5 false, slot .txs .imp 2 false, none,
    none, slot .sta .abx 5 false, none, none ]

/-- Row $Ax of the map (R130, R131): opcode bytes $A0 to $AF. -/
def metadataRowA : List (Option Slot) :=
  [ slot .ldy .imm 2 false, slot .lda .izx 6 false, slot .ldx .imm 2 false, none,
    slot .ldy .zp 3 false, slot .lda .zp 3 false, slot .ldx .zp 3 false, none,
    slot .tay .imp 2 false, slot .lda .imm 2 false, slot .tax .imp 2 false, none,
    slot .ldy .abs 4 false, slot .lda .abs 4 false, slot .ldx .abs 4 false, none ]

/-- Row $Bx of the map (R130, R131): opcode bytes $B0 to $BF. -/
def metadataRowB : List (Option Slot) :=
  [ slot .bcs .rel 2 false, slot .lda .izy 5 true, none, none,
    slot .ldy .zpx 4 false, slot .lda .zpx 4 false, slot .ldx .zpy 4 false, none,
    slot .clv .imp 2 false, slot .lda .aby 4 true, slot .tsx .imp 2 false, none,
    slot .ldy .abx 4 true, slot .lda .abx 4 true, slot .ldx .aby 4 true, none ]

/-- Row $Cx of the map (R130, R131): opcode bytes $C0 to $CF. -/
def metadataRowC : List (Option Slot) :=
  [ slot .cpy .imm 2 false, slot .cmp .izx 6 false, none, none,
    slot .cpy .zp 3 false, slot .cmp .zp 3 false, slot .dec .zp 5 false, none,
    slot .iny .imp 2 false, slot .cmp .imm 2 false, slot .dex .imp 2 false, none,
    slot .cpy .abs 4 false, slot .cmp .abs 4 false, slot .dec .abs 6 false, none ]

/-- Row $Dx of the map (R130, R131): opcode bytes $D0 to $DF. -/
def metadataRowD : List (Option Slot) :=
  [ slot .bne .rel 2 false, slot .cmp .izy 5 true, none, none,
    none, slot .cmp .zpx 4 false, slot .dec .zpx 6 false, none,
    slot .cld .imp 2 false, slot .cmp .aby 4 true, none, none,
    none, slot .cmp .abx 4 true, slot .dec .abx 7 false, none ]

/-- Row $Ex of the map (R130, R131): opcode bytes $E0 to $EF. -/
def metadataRowE : List (Option Slot) :=
  [ slot .cpx .imm 2 false, slot .sbc .izx 6 false, none, none,
    slot .cpx .zp 3 false, slot .sbc .zp 3 false, slot .inc .zp 5 false, none,
    slot .inx .imp 2 false, slot .sbc .imm 2 false, slot .nop .imp 2 false, none,
    slot .cpx .abs 4 false, slot .sbc .abs 4 false, slot .inc .abs 6 false, none ]

/-- Row $Fx of the map (R130, R131): opcode bytes $F0 to $FF. -/
def metadataRowF : List (Option Slot) :=
  [ slot .beq .rel 2 false, slot .sbc .izy 5 true, none, none,
    none, slot .sbc .zpx 4 false, slot .inc .zpx 6 false, none,
    slot .sed .imp 2 false, slot .sbc .aby 4 true, none, none,
    none, slot .sbc .abx 4 true, slot .inc .abx 7 false, none ]

/-- The metadata table: 256 slots indexed by the opcode byte (R125); `none` is an empty slot (R136). -/
def metadataTable : List (Option Slot) :=
  metadataRow0 ++ metadataRow1 ++ metadataRow2 ++ metadataRow3 ++ metadataRow4 ++ metadataRow5 ++ metadataRow6 ++ metadataRow7 ++
  metadataRow8 ++ metadataRow9 ++ metadataRowA ++ metadataRowB ++ metadataRowC ++ metadataRowD ++ metadataRowE ++ metadataRowF

/-- The slot of an opcode byte; `none` when it is empty (R125, R136). -/
def metadata (opc : Byte) : Option Slot := (metadataTable[opc.toNat]?).join

/-- The instruction of an opcode byte and its operand bytes (R124, R126, R130). The operand bytes a mode does not
carry are ignored. -/
def assemble (opc b1 b2 : Byte) : Option Instr :=
  match opc.toNat with
  | 0x00 => some Instr.brk
  | 0x01 => some (Instr.oraIzx b1)
  | 0x05 => some (Instr.oraZp b1)
  | 0x06 => some (Instr.aslZp b1)
  | 0x08 => some Instr.php
  | 0x09 => some (Instr.oraImm b1)
  | 0x0A => some Instr.aslAcc
  | 0x0D => some (Instr.oraAbs (mkWord b2 b1))
  | 0x0E => some (Instr.aslAbs (mkWord b2 b1))
  | 0x10 => some (Instr.bpl b1)
  | 0x11 => some (Instr.oraIzy b1)
  | 0x15 => some (Instr.oraZpx b1)
  | 0x16 => some (Instr.aslZpx b1)
  | 0x18 => some Instr.clc
  | 0x19 => some (Instr.oraAby (mkWord b2 b1))
  | 0x1D => some (Instr.oraAbx (mkWord b2 b1))
  | 0x1E => some (Instr.aslAbx (mkWord b2 b1))
  | 0x20 => some (Instr.jsr (mkWord b2 b1))
  | 0x21 => some (Instr.andIzx b1)
  | 0x24 => some (Instr.bitZp b1)
  | 0x25 => some (Instr.andZp b1)
  | 0x26 => some (Instr.rolZp b1)
  | 0x28 => some Instr.plp
  | 0x29 => some (Instr.andImm b1)
  | 0x2A => some Instr.rolAcc
  | 0x2C => some (Instr.bitAbs (mkWord b2 b1))
  | 0x2D => some (Instr.andAbs (mkWord b2 b1))
  | 0x2E => some (Instr.rolAbs (mkWord b2 b1))
  | 0x30 => some (Instr.bmi b1)
  | 0x31 => some (Instr.andIzy b1)
  | 0x35 => some (Instr.andZpx b1)
  | 0x36 => some (Instr.rolZpx b1)
  | 0x38 => some Instr.sec
  | 0x39 => some (Instr.andAby (mkWord b2 b1))
  | 0x3D => some (Instr.andAbx (mkWord b2 b1))
  | 0x3E => some (Instr.rolAbx (mkWord b2 b1))
  | 0x40 => some Instr.rti
  | 0x41 => some (Instr.eorIzx b1)
  | 0x45 => some (Instr.eorZp b1)
  | 0x46 => some (Instr.lsrZp b1)
  | 0x48 => some Instr.pha
  | 0x49 => some (Instr.eorImm b1)
  | 0x4A => some Instr.lsrAcc
  | 0x4C => some (Instr.jmpAbs (mkWord b2 b1))
  | 0x4D => some (Instr.eorAbs (mkWord b2 b1))
  | 0x4E => some (Instr.lsrAbs (mkWord b2 b1))
  | 0x50 => some (Instr.bvc b1)
  | 0x51 => some (Instr.eorIzy b1)
  | 0x55 => some (Instr.eorZpx b1)
  | 0x56 => some (Instr.lsrZpx b1)
  | 0x58 => some Instr.cli
  | 0x59 => some (Instr.eorAby (mkWord b2 b1))
  | 0x5D => some (Instr.eorAbx (mkWord b2 b1))
  | 0x5E => some (Instr.lsrAbx (mkWord b2 b1))
  | 0x60 => some Instr.rts
  | 0x61 => some (Instr.adcIzx b1)
  | 0x65 => some (Instr.adcZp b1)
  | 0x66 => some (Instr.rorZp b1)
  | 0x68 => some Instr.pla
  | 0x69 => some (Instr.adcImm b1)
  | 0x6A => some Instr.rorAcc
  | 0x6C => some (Instr.jmpInd (mkWord b2 b1))
  | 0x6D => some (Instr.adcAbs (mkWord b2 b1))
  | 0x6E => some (Instr.rorAbs (mkWord b2 b1))
  | 0x70 => some (Instr.bvs b1)
  | 0x71 => some (Instr.adcIzy b1)
  | 0x75 => some (Instr.adcZpx b1)
  | 0x76 => some (Instr.rorZpx b1)
  | 0x78 => some Instr.sei
  | 0x79 => some (Instr.adcAby (mkWord b2 b1))
  | 0x7D => some (Instr.adcAbx (mkWord b2 b1))
  | 0x7E => some (Instr.rorAbx (mkWord b2 b1))
  | 0x81 => some (Instr.staIzx b1)
  | 0x84 => some (Instr.styZp b1)
  | 0x85 => some (Instr.staZp b1)
  | 0x86 => some (Instr.stxZp b1)
  | 0x88 => some Instr.dey
  | 0x8A => some Instr.txa
  | 0x8C => some (Instr.styAbs (mkWord b2 b1))
  | 0x8D => some (Instr.staAbs (mkWord b2 b1))
  | 0x8E => some (Instr.stxAbs (mkWord b2 b1))
  | 0x90 => some (Instr.bcc b1)
  | 0x91 => some (Instr.staIzy b1)
  | 0x94 => some (Instr.styZpx b1)
  | 0x95 => some (Instr.staZpx b1)
  | 0x96 => some (Instr.stxZpy b1)
  | 0x98 => some Instr.tya
  | 0x99 => some (Instr.staAby (mkWord b2 b1))
  | 0x9A => some Instr.txs
  | 0x9D => some (Instr.staAbx (mkWord b2 b1))
  | 0xA0 => some (Instr.ldyImm b1)
  | 0xA1 => some (Instr.ldaIzx b1)
  | 0xA2 => some (Instr.ldxImm b1)
  | 0xA4 => some (Instr.ldyZp b1)
  | 0xA5 => some (Instr.ldaZp b1)
  | 0xA6 => some (Instr.ldxZp b1)
  | 0xA8 => some Instr.tay
  | 0xA9 => some (Instr.ldaImm b1)
  | 0xAA => some Instr.tax
  | 0xAC => some (Instr.ldyAbs (mkWord b2 b1))
  | 0xAD => some (Instr.ldaAbs (mkWord b2 b1))
  | 0xAE => some (Instr.ldxAbs (mkWord b2 b1))
  | 0xB0 => some (Instr.bcs b1)
  | 0xB1 => some (Instr.ldaIzy b1)
  | 0xB4 => some (Instr.ldyZpx b1)
  | 0xB5 => some (Instr.ldaZpx b1)
  | 0xB6 => some (Instr.ldxZpy b1)
  | 0xB8 => some Instr.clv
  | 0xB9 => some (Instr.ldaAby (mkWord b2 b1))
  | 0xBA => some Instr.tsx
  | 0xBC => some (Instr.ldyAbx (mkWord b2 b1))
  | 0xBD => some (Instr.ldaAbx (mkWord b2 b1))
  | 0xBE => some (Instr.ldxAby (mkWord b2 b1))
  | 0xC0 => some (Instr.cpyImm b1)
  | 0xC1 => some (Instr.cmpIzx b1)
  | 0xC4 => some (Instr.cpyZp b1)
  | 0xC5 => some (Instr.cmpZp b1)
  | 0xC6 => some (Instr.decZp b1)
  | 0xC8 => some Instr.iny
  | 0xC9 => some (Instr.cmpImm b1)
  | 0xCA => some Instr.dex
  | 0xCC => some (Instr.cpyAbs (mkWord b2 b1))
  | 0xCD => some (Instr.cmpAbs (mkWord b2 b1))
  | 0xCE => some (Instr.decAbs (mkWord b2 b1))
  | 0xD0 => some (Instr.bne b1)
  | 0xD1 => some (Instr.cmpIzy b1)
  | 0xD5 => some (Instr.cmpZpx b1)
  | 0xD6 => some (Instr.decZpx b1)
  | 0xD8 => some Instr.cld
  | 0xD9 => some (Instr.cmpAby (mkWord b2 b1))
  | 0xDD => some (Instr.cmpAbx (mkWord b2 b1))
  | 0xDE => some (Instr.decAbx (mkWord b2 b1))
  | 0xE0 => some (Instr.cpxImm b1)
  | 0xE1 => some (Instr.sbcIzx b1)
  | 0xE4 => some (Instr.cpxZp b1)
  | 0xE5 => some (Instr.sbcZp b1)
  | 0xE6 => some (Instr.incZp b1)
  | 0xE8 => some Instr.inx
  | 0xE9 => some (Instr.sbcImm b1)
  | 0xEA => some Instr.nop
  | 0xEC => some (Instr.cpxAbs (mkWord b2 b1))
  | 0xED => some (Instr.sbcAbs (mkWord b2 b1))
  | 0xEE => some (Instr.incAbs (mkWord b2 b1))
  | 0xF0 => some (Instr.beq b1)
  | 0xF1 => some (Instr.sbcIzy b1)
  | 0xF5 => some (Instr.sbcZpx b1)
  | 0xF6 => some (Instr.incZpx b1)
  | 0xF8 => some Instr.sed
  | 0xF9 => some (Instr.sbcAby (mkWord b2 b1))
  | 0xFD => some (Instr.sbcAbx (mkWord b2 b1))
  | 0xFE => some (Instr.incAbx (mkWord b2 b1))
  | _ => none

/-- Why the decoder refuses a list of bytes. -/
inductive DecodeError where
  /-- There is no byte to read. -/
  | noBytes
  /-- The opcode byte has no metadata entry (R126, R136). -/
  | emptySlot (opc : Byte)
  /-- The bytes end before the operand bytes of the mode (R127). -/
  | truncated (opc : Byte)
  deriving DecidableEq, Repr

/-- Decode an instruction from the bytes it is laid out in, at increasing addresses (R121, R126, R127), with the bytes
that are left over; or say why not. -/
def decodeOr (bytes : List Byte) : Except DecodeError (Instr × List Byte) :=
  match bytes with
  | [] => .error .noBytes
  | opc :: rest =>
    match metadata opc with
    | none => .error (.emptySlot opc)
    | some sl =>
      match sl.mode.operandBytes, rest with
      | 0, rest => ((assemble opc 0 0).map (·, rest)).elim (.error (.emptySlot opc)) .ok
      | 1, b1 :: rest => ((assemble opc b1 0).map (·, rest)).elim (.error (.emptySlot opc)) .ok
      | 2, b1 :: b2 :: rest => ((assemble opc b1 b2).map (·, rest)).elim (.error (.emptySlot opc)) .ok
      | _, _ => .error (.truncated opc)

/-- Decode an instruction from bytes: `decodeOr` without the reason. -/
def decode (bytes : List Byte) : Option (Instr × List Byte) := (decodeOr bytes).toOption

/-- Why bytes are refused, if they are. -/
def decodeError (bytes : List Byte) : Option DecodeError :=
  match decodeOr bytes with
  | .error e => some e
  | .ok _ => none

/-- The bytes of an instruction, at increasing addresses (R121): the opcode byte of R130, then b1, then b2. -/
def encode : Instr → List Byte
  | .adcImm b1 => [0x69, b1]
  | .adcZp b1 => [0x65, b1]
  | .adcZpx b1 => [0x75, b1]
  | .adcIzx b1 => [0x61, b1]
  | .adcIzy b1 => [0x71, b1]
  | .adcAbs addr => [0x6D, loByte addr, hiByte addr]
  | .adcAbx addr => [0x7D, loByte addr, hiByte addr]
  | .adcAby addr => [0x79, loByte addr, hiByte addr]
  | .sbcImm b1 => [0xE9, b1]
  | .sbcZp b1 => [0xE5, b1]
  | .sbcZpx b1 => [0xF5, b1]
  | .sbcIzx b1 => [0xE1, b1]
  | .sbcIzy b1 => [0xF1, b1]
  | .sbcAbs addr => [0xED, loByte addr, hiByte addr]
  | .sbcAbx addr => [0xFD, loByte addr, hiByte addr]
  | .sbcAby addr => [0xF9, loByte addr, hiByte addr]
  | .andImm b1 => [0x29, b1]
  | .andZp b1 => [0x25, b1]
  | .andZpx b1 => [0x35, b1]
  | .andIzx b1 => [0x21, b1]
  | .andIzy b1 => [0x31, b1]
  | .andAbs addr => [0x2D, loByte addr, hiByte addr]
  | .andAbx addr => [0x3D, loByte addr, hiByte addr]
  | .andAby addr => [0x39, loByte addr, hiByte addr]
  | .oraImm b1 => [0x09, b1]
  | .oraZp b1 => [0x05, b1]
  | .oraZpx b1 => [0x15, b1]
  | .oraIzx b1 => [0x01, b1]
  | .oraIzy b1 => [0x11, b1]
  | .oraAbs addr => [0x0D, loByte addr, hiByte addr]
  | .oraAbx addr => [0x1D, loByte addr, hiByte addr]
  | .oraAby addr => [0x19, loByte addr, hiByte addr]
  | .eorImm b1 => [0x49, b1]
  | .eorZp b1 => [0x45, b1]
  | .eorZpx b1 => [0x55, b1]
  | .eorIzx b1 => [0x41, b1]
  | .eorIzy b1 => [0x51, b1]
  | .eorAbs addr => [0x4D, loByte addr, hiByte addr]
  | .eorAbx addr => [0x5D, loByte addr, hiByte addr]
  | .eorAby addr => [0x59, loByte addr, hiByte addr]
  | .aslAcc => [0x0A]
  | .aslZp b1 => [0x06, b1]
  | .aslZpx b1 => [0x16, b1]
  | .aslAbs addr => [0x0E, loByte addr, hiByte addr]
  | .aslAbx addr => [0x1E, loByte addr, hiByte addr]
  | .lsrAcc => [0x4A]
  | .lsrZp b1 => [0x46, b1]
  | .lsrZpx b1 => [0x56, b1]
  | .lsrAbs addr => [0x4E, loByte addr, hiByte addr]
  | .lsrAbx addr => [0x5E, loByte addr, hiByte addr]
  | .rolAcc => [0x2A]
  | .rolZp b1 => [0x26, b1]
  | .rolZpx b1 => [0x36, b1]
  | .rolAbs addr => [0x2E, loByte addr, hiByte addr]
  | .rolAbx addr => [0x3E, loByte addr, hiByte addr]
  | .rorAcc => [0x6A]
  | .rorZp b1 => [0x66, b1]
  | .rorZpx b1 => [0x76, b1]
  | .rorAbs addr => [0x6E, loByte addr, hiByte addr]
  | .rorAbx addr => [0x7E, loByte addr, hiByte addr]
  | .cmpImm b1 => [0xC9, b1]
  | .cmpZp b1 => [0xC5, b1]
  | .cmpZpx b1 => [0xD5, b1]
  | .cmpIzx b1 => [0xC1, b1]
  | .cmpIzy b1 => [0xD1, b1]
  | .cmpAbs addr => [0xCD, loByte addr, hiByte addr]
  | .cmpAbx addr => [0xDD, loByte addr, hiByte addr]
  | .cmpAby addr => [0xD9, loByte addr, hiByte addr]
  | .cpxImm b1 => [0xE0, b1]
  | .cpxZp b1 => [0xE4, b1]
  | .cpxAbs addr => [0xEC, loByte addr, hiByte addr]
  | .cpyImm b1 => [0xC0, b1]
  | .cpyZp b1 => [0xC4, b1]
  | .cpyAbs addr => [0xCC, loByte addr, hiByte addr]
  | .bitZp b1 => [0x24, b1]
  | .bitAbs addr => [0x2C, loByte addr, hiByte addr]
  | .bcc b1 => [0x90, b1]
  | .bcs b1 => [0xB0, b1]
  | .beq b1 => [0xF0, b1]
  | .bmi b1 => [0x30, b1]
  | .bne b1 => [0xD0, b1]
  | .bpl b1 => [0x10, b1]
  | .bvc b1 => [0x50, b1]
  | .bvs b1 => [0x70, b1]
  | .jmpAbs addr => [0x4C, loByte addr, hiByte addr]
  | .jmpInd addr => [0x6C, loByte addr, hiByte addr]
  | .pha => [0x48]
  | .pla => [0x68]
  | .php => [0x08]
  | .plp => [0x28]
  | .jsr addr => [0x20, loByte addr, hiByte addr]
  | .rts => [0x60]
  | .rti => [0x40]
  | .brk => [0x00]
  | .tax => [0xAA]
  | .tay => [0xA8]
  | .txa => [0x8A]
  | .tya => [0x98]
  | .tsx => [0xBA]
  | .txs => [0x9A]
  | .ldaImm b1 => [0xA9, b1]
  | .ldaZp b1 => [0xA5, b1]
  | .ldaZpx b1 => [0xB5, b1]
  | .ldaIzx b1 => [0xA1, b1]
  | .ldaIzy b1 => [0xB1, b1]
  | .ldaAbs addr => [0xAD, loByte addr, hiByte addr]
  | .ldaAbx addr => [0xBD, loByte addr, hiByte addr]
  | .ldaAby addr => [0xB9, loByte addr, hiByte addr]
  | .ldxImm b1 => [0xA2, b1]
  | .ldxZp b1 => [0xA6, b1]
  | .ldxZpy b1 => [0xB6, b1]
  | .ldxAbs addr => [0xAE, loByte addr, hiByte addr]
  | .ldxAby addr => [0xBE, loByte addr, hiByte addr]
  | .ldyImm b1 => [0xA0, b1]
  | .ldyZp b1 => [0xA4, b1]
  | .ldyZpx b1 => [0xB4, b1]
  | .ldyAbs addr => [0xAC, loByte addr, hiByte addr]
  | .ldyAbx addr => [0xBC, loByte addr, hiByte addr]
  | .staZp b1 => [0x85, b1]
  | .staZpx b1 => [0x95, b1]
  | .staIzx b1 => [0x81, b1]
  | .staIzy b1 => [0x91, b1]
  | .staAbs addr => [0x8D, loByte addr, hiByte addr]
  | .staAbx addr => [0x9D, loByte addr, hiByte addr]
  | .staAby addr => [0x99, loByte addr, hiByte addr]
  | .stxZp b1 => [0x86, b1]
  | .stxZpy b1 => [0x96, b1]
  | .stxAbs addr => [0x8E, loByte addr, hiByte addr]
  | .styZp b1 => [0x84, b1]
  | .styZpx b1 => [0x94, b1]
  | .styAbs addr => [0x8C, loByte addr, hiByte addr]
  | .incZp b1 => [0xE6, b1]
  | .incZpx b1 => [0xF6, b1]
  | .incAbs addr => [0xEE, loByte addr, hiByte addr]
  | .incAbx addr => [0xFE, loByte addr, hiByte addr]
  | .decZp b1 => [0xC6, b1]
  | .decZpx b1 => [0xD6, b1]
  | .decAbs addr => [0xCE, loByte addr, hiByte addr]
  | .decAbx addr => [0xDE, loByte addr, hiByte addr]
  | .inx => [0xE8]
  | .iny => [0xC8]
  | .dex => [0xCA]
  | .dey => [0x88]
  | .clc => [0x18]
  | .sec => [0x38]
  | .cli => [0x58]
  | .sei => [0x78]
  | .cld => [0xD8]
  | .sed => [0xF8]
  | .clv => [0xB8]
  | .nop => [0xEA]

/-- The opcode byte of an instruction. -/
def Instr.opcode (i : Instr) : Byte := (encode i).headD 0

/-- The metadata slot of an instruction. -/
def Instr.slot? (i : Instr) : Option Slot := metadata i.opcode

/-- The length of an instruction in bytes (R120, R123). -/
def Instr.length (i : Instr) : Nat := (encode i).length

/-- The three bytes at the start of a table word of `nbits` bits (bit 0 is the least significant bit of the first
byte; every bit from `nbits` up is 0), the first at the lowest address. -/
def tableWordBytes (nbits w : Nat) : List Byte :=
  let v := w % 2 ^ nbits
  [BitVec.ofNat 8 v, BitVec.ofNat 8 (v / 256), BitVec.ofNat 8 (v / 65536)]

/-- The instruction the decoder reads from a table word. -/
def decodeTableWord (nbits w : Nat) : Option Instr := (decode (tableWordBytes nbits w)).map Prod.fst

end Sys2Proof
end

