-- ==== Sys2Proof/Config.lean ====
section
/-! DEFINITION. What a configuration of the machine fixes (spec/00_scope.md R7, spec/92_eei_decisions.md) and the free
values of the attached device (spec/60_exceptions.md R350 to R358). A parameter with a stated default is a definition;
a value the spec leaves open is an opaque constant, of which nothing can be proved. -/

namespace Sys2Proof

/-- One access that the bus forwards to the attached device (R76, R77): the only thing that changes it (R8, R358). The list
of them is what the device's unstated values may depend on (notes/assumptions/4.md). -/
inductive PeriphEvent where
  /-- A forwarded read of a window address. -/
  | read (addr : Word)
  /-- A forwarded write of a window address. -/
  | write (addr : Word) (v : Byte)
  /-- The 256 bytes handed over by an OAM DMA. -/
  | dma (page : Vector Byte 256)
  deriving DecidableEq, Repr

namespace Config

/-- `DMA_CYCLES` (R7): the cycles added to a step that triggers an OAM DMA. Default 0. -/
def dmaCycles : Nat := 0

/-- `SERVICE_CYCLES` (spec/93_implementation_defined.md U3): the cost of an interrupt service. Default 7. -/
def serviceCycles : Nat := 7

/-- `IRQ_MASKING` (D12, U1): the flag I holds an IRQ back. Default true. -/
def irqMasking : Bool := true

/-- `JMP_IND_PAGE_WRAP` (D7, U17): JMP indirect reads the high byte of its target from the page of the low byte.
Default true. -/
def jmpIndPageWrap : Bool := true

/-- `BRANCH_CROSS` = `hardware` (D25, U18): the branch page test compares PC + 2 with PC + 2 + off. Default false, which
is the setting `source`. -/
def branchCrossHardware : Bool := false

/-! Free values of the device. Each takes the list of all accesses so far, the present one first, so that nothing
relates two values of one run. DESIGN CHOICE in the form, notes/assumptions/4.md to 8.md. -/

/-- The byte a read of the status register returns: the spec gives no bit position of the two flags and nothing of the
other bits (R353). -/
opaque statusByte : (hit vblank : Bool) → List PeriphEvent → Byte

/-- The byte a read of any other register of the window returns, except the data port: not stated (R78, R352, R354). -/
opaque readValue : List PeriphEvent → Byte

/-- The byte of the memory behind the data port at an internal address: that memory is the picture unit's (R356). -/
opaque deviceMemory : (va : Word) → List PeriphEvent → Byte

/-- The internal address at which the palette region starts: not stated (R356). -/
opaque paletteStart : Word

/-- The read-ahead byte after a read of the data port in the palette region: not stated (R356). -/
opaque bufferAfterPalette : List PeriphEvent → Byte

/-- By how much an access of the data port advances the internal address: not stated (R356). -/
opaque dataPortAdvance : List PeriphEvent → Word

/-- Whether a write of the OAM data register increments the OAM address: not stated (R354). -/
opaque oamAddrIncrements : List PeriphEvent → Bool

/-- Whether the first of the two writes that load the internal address is its high half: not stated (R355). -/
opaque highHalfFirst : Bool

/-- Whether the next write of the address port is the second one, after a read of the status register: the spec forbids
relying on either answer (R353). -/
opaque toggleAfterStatusRead : List PeriphEvent → Bool

/-- The same after a write of $2005, a register the source does not mention (R351). -/
opaque toggleAfterScrollWrite : List PeriphEvent → Bool

end Config
end Sys2Proof
end

