-- ==== Sys2Proof/Machine/State.lean ====
section
/-! DEFINITION. The state of the machine (spec/10_state.md R30 to R56, and the device contract of
spec/60_exceptions.md R350 to R358), the reasons a step can stop, and the state after power-on. The field names are the
spec's. -/

namespace Sys2Proof.Machine

/-- Storage as a list of (physical index, byte) pairs, in the canonical form of `Memory.wf` (Ops.lean). The index is
that of R72: 0 to 2047 for the internal RAM, the address itself from $2000 up. -/
abbrev Memory := List Host.Cell

/-- The attached device as far as the source describes it (R351). Every part it leaves open is a free value of
Config.lean over `history`. -/
structure Periph where
  /-- The control register (R352). -/
  ctrl : Byte
  /-- The mask register (R352). -/
  mask : Byte
  /-- The hit flag of the status register (R353). -/
  hit : Bool
  /-- The vblank flag of the status register (R353). -/
  vblank : Bool
  /-- The OAM address register (R354). -/
  oamAddr : Byte
  /-- The OAM memory (R351, R354, R357). -/
  oam : Vector Byte 256
  /-- The 16-bit internal address register (R355). -/
  addr : Word
  /-- The double-write latch: the next write of the address port is the second of its pair (R355). -/
  addrSecond : Bool
  /-- The read-ahead byte of the data port (R356). -/
  buf : Byte
  /-- Every forwarded access so far, the latest first. The model's own field: the free values take it as argument. -/
  history : List PeriphEvent
  deriving DecidableEq, Repr

/-- The complete state (R30). Nothing else persists from one step to the next (R52). -/
structure State where
  /-- Accumulator (R31). -/
  A : Byte
  /-- Index register X (R32). -/
  X : Byte
  /-- Index register Y (R33). -/
  Y : Byte
  /-- Stack pointer: the next free byte of page 1 (R34). -/
  SP : Byte
  /-- Program counter: the address of the next opcode byte (R36). -/
  PC : Word
  /-- Carry (R39). -/
  C : Bool
  /-- Zero (R40). -/
  Z : Bool
  /-- InterruptDisable (R41). -/
  I : Bool
  /-- DecimalMode (R42). -/
  D : Bool
  /-- Break (R43). -/
  B : Bool
  /-- Overflow (R44). -/
  V : Bool
  /-- Negative (R45). -/
  N : Bool
  /-- The latch of a Reset request (R48). -/
  pendReset : Bool
  /-- The latch of an NMI request (R48). -/
  pendNMI : Bool
  /-- The latch of an IRQ request (R48). -/
  pendIRQ : Bool
  /-- Storage: RAM and MEM (R49). -/
  mem : Memory
  /-- The attached device (R50). -/
  ps : Periph
  deriving DecidableEq, Repr

/-- The two fatal error kinds (R320). -/
inductive Fault where
  /-- `InvalidOpcode(pc, byte)`: raised by `step` when the byte at PC has no metadata entry (R321). Safe: the spec says
  that the step ends so. -/
  | invalidOpcode (pc : Word) (byte : Byte)
  /-- `AddressOutOfRange(addr)`: raised only by the host's bus calls, for an address outside 0 to 65535 (R89, R323);
  never by `step`. Safe: the spec says that the call ends so. -/
  | addressOutOfRange (addr : Int)
  deriving DecidableEq, Repr

/-- The reasons for which the model gives no meaning. -/
inductive Refusal where
  /-- The instruction has no meaning in `exec` yet. Raised by no arm: every instruction has its meaning. Safe. -/
  | notModelled (mnemonic : String)
  deriving DecidableEq, Repr

/-- The device before any access. The spec makes its initial state a parameter (D22): every register is 0, DESIGN
CHOICE, notes/assumptions/3.md. -/
def Periph.initial : Periph where
  ctrl := 0
  mask := 0
  hit := false
  vblank := false
  oamAddr := 0
  oam := Vector.replicate 256 0
  addr := 0
  addrSecond := false
  buf := 0
  history := []

/-- The state after power-on (R54, R380) with `MEM_INIT` all zero and no bank loaded: PC is the word at $FFFC of that
memory, SP is $FD, I is set, everything else is 0. notes/assumptions/2.md and 3.md. -/
def State.reset : State where
  A := 0
  X := 0
  Y := 0
  SP := 0xFD
  PC := 0
  C := false
  Z := false
  I := true
  D := false
  B := false
  V := false
  N := false
  pendReset := false
  pendNMI := false
  pendIRQ := false
  mem := []
  ps := Periph.initial

end Sys2Proof.Machine
end

