-- ==== Sys2Proof/Machine/Flags.lean ====
section
/-! DEFINITION. The flag computations (spec/10_state.md R38 to R47; spec/40_addressing_modes.md R175; the flag parts of
spec/41_arithmetic.md, 42_logic_shift_rotate.md and 43_compare_bit.md). -/

namespace Sys2Proof.Machine

/-- `SetZN(v)` (R175): Z says that v is 0, N is bit 7 of v. -/
def setZN (v : Byte) (s : State) : State := { s with Z := v == 0, N := v.getLsbD 7 }

/-- A flag as the bit `k` of a byte. -/
def flagBit (f : Bool) (k : Nat) : Byte := if f then 1#8 <<< k else 0#8

/-- `PackFlags()` (R46): N V 1 B D I Z C from bit 7 to bit 0. -/
def packFlags (s : State) : Byte :=
  flagBit s.N 7 ||| flagBit s.V 6 ||| 0x20#8 ||| flagBit s.B 4 ||| flagBit s.D 3 ||| flagBit s.I 2 ||| flagBit s.Z 1
    ||| flagBit s.C 0

/-- `UnpackFlags(p)` (R47): all seven flags from the byte; bit 5 is ignored. -/
def unpackFlags (p : Byte) (s : State) : State :=
  { s with
    N := p.getLsbD 7
    V := p.getLsbD 6
    B := p.getLsbD 4
    D := p.getLsbD 3
    I := p.getLsbD 2
    Z := p.getLsbD 1
    C := p.getLsbD 0 }

/-- The outcome of an addition: the byte, the carry out and the signed overflow. -/
structure AluSum where
  value : Byte
  carry : Bool
  overflow : Bool
  deriving DecidableEq, Repr

/-- A + M + C in a wider accumulator (R190): the carry says that the raw sum exceeds 255; the overflow that both
operands share a sign which the result does not have. -/
def addWithCarry (a m : Byte) (c : Bool) : AluSum :=
  let raw := a.toNat + m.toNat + c.toNat
  let r := BitVec.ofNat 8 raw
  { value := r
    carry := decide (raw > 255)
    overflow := (a.getLsbD 7 == m.getLsbD 7) && (r.getLsbD 7 != a.getLsbD 7) }

/-- The flags of a comparison of a register with a byte (R220 to R222): C is the unsigned "at least", Z equality, N bit
7 of the wrapped difference. -/
def compareFlags (r m : Byte) (s : State) : State :=
  { s with C := decide (m.toNat ≤ r.toNat), Z := r == m, N := (r - m).getLsbD 7 }

/-- The flags of BIT (R223): Z from the AND, N and V from bits 7 and 6 of the operand. -/
def bitFlags (a m : Byte) (s : State) : State :=
  { s with Z := (a &&& m) == 0, N := m.getLsbD 7, V := m.getLsbD 6 }

/-- The outcome of a shift or a rotate by one bit: the byte and the bit that left it. -/
structure Shifted where
  value : Byte
  out : Bool
  deriving DecidableEq, Repr

/-- One bit to the left, `cin` entering bit 0 (R203 with `cin` = 0, R205 with the carry). -/
def shiftLeft (v : Byte) (cin : Bool) : Shifted := ⟨(v <<< 1) ||| flagBit cin 0, v.getLsbD 7⟩

/-- One bit to the right, `cin` entering bit 7 (R204 with `cin` = 0, R206 with the carry). -/
def shiftRight (v : Byte) (cin : Bool) : Shifted := ⟨(v >>> 1) ||| flagBit cin 7, v.getLsbD 0⟩

end Sys2Proof.Machine
end

