-- ==== Sys2Proof/Machine/Periph.lean ====
section
/-! DEFINITION. The attached device's three functions `PeriphRead`, `PeriphWrite` and `PeriphDMA`
(spec/00_scope.md R7; spec/60_exceptions.md R350 to R358), with the address assignment of R351. What the source states
of a register is modelled; what it does not state is a free value of Config.lean. The device never reaches the bus and
never changes the core (R350). -/

namespace Sys2Proof.Machine

/-- Record a forwarded access. -/
def Periph.record (e : PeriphEvent) (p : Periph) : Periph := { p with history := e :: p.history }

/-- A read of the status register $2002: the status byte as it was, after which vblank is clear and hit is unchanged
(R353, spec/90_conflicts.md C6). What becomes of the double-write latch is free. `p` has the access recorded. -/
def Periph.readStatus (p : Periph) : Byte × Periph :=
  (Config.statusByte p.hit p.vblank p.history,
    { p with vblank := false, addrSecond := Config.toggleAfterStatusRead p.history })

/-- Whether the internal address lies below the palette region (R356). -/
def Periph.belowPalette (p : Periph) : Bool := decide (p.addr.toNat < Config.paletteStart.toNat)

/-- A read of the data port $2007 (R356): below the palette region the previous read-ahead byte is returned and the
buffer takes the device-memory byte at the internal address; in it, that byte itself is returned. Both advance the
address. -/
def Periph.readData (p : Periph) : Byte × Periph :=
  let fetched := Config.deviceMemory p.addr p.history
  let next := p.addr + Config.dataPortAdvance p.history
  if p.belowPalette then (p.buf, { p with buf := fetched, addr := next })
  else (fetched, { p with buf := Config.bufferAfterPalette p.history, addr := next })

/-- `PeriphRead` (R350, R352 to R356, R78). -/
def periphRead (a : Word) (p : Periph) : Byte × Periph :=
  let p := p.record (.read a)
  if a = 0x2002#16 then p.readStatus
  else if a = 0x2007#16 then p.readData
  else (Config.readValue p.history, p)

/-- A write of the OAM data register $2004: the byte at the OAM address is replaced (R354). -/
def Periph.writeOamData (v : Byte) (p : Periph) : Periph :=
  { p with
    oam := p.oam.set p.oamAddr.toNat v p.oamAddr.isLt
    oamAddr := if Config.oamAddrIncrements p.history then p.oamAddr + 1 else p.oamAddr }

/-- A write of the address port $2006: the first write of a pair loads one half of the internal address, the second the
other (R355). Each half is loaded at its own write: DESIGN CHOICE, notes/assumptions/7.md. -/
def Periph.writeAddress (v : Byte) (p : Periph) : Periph :=
  let high := p.addrSecond != Config.highHalfFirst
  { p with
    addr := if high then (p.addr &&& 0x00FF#16) ||| (v.setWidth 16 <<< 8) else (p.addr &&& 0xFF00#16) ||| v.setWidth 16
    addrSecond := !p.addrSecond }

/-- A write of the data port $2007: the byte goes to the memory behind the port, which is outside the block, and the
internal address advances (R356). -/
def Periph.writeData (p : Periph) : Periph := { p with addr := p.addr + Config.dataPortAdvance p.history }

/-- `PeriphWrite` for $2000 to $2007 (R350, R352 to R356). A write of the status register changes none of the registers
the source names. -/
def periphWrite (a : Word) (v : Byte) (p : Periph) : Periph :=
  let p := p.record (.write a v)
  if a = 0x2000#16 then { p with ctrl := v }
  else if a = 0x2001#16 then { p with mask := v }
  else if a = 0x2003#16 then { p with oamAddr := v }
  else if a = 0x2004#16 then p.writeOamData v
  else if a = 0x2005#16 then { p with addrSecond := Config.toggleAfterScrollWrite p.history }
  else if a = 0x2006#16 then p.writeAddress v
  else if a = 0x2007#16 then p.writeData
  else p

/-- `PeriphDMA`: OAM[i] takes d[i] for every i (R357, D23). -/
def periphDMA (d : Vector Byte 256) (p : Periph) : Periph :=
  let p := p.record (.dma d)
  { p with oam := d }

end Sys2Proof.Machine
end

