-- ==== Sys2Proof/Machine/Ops.lean ====
section
/-! DEFINITION. The named operations over memory, the bus, the stack and the program counter (spec/20_memory.md R70 to
R98), and entering a handler and returning from one, once for BRK, NMI, IRQ and RTI (spec/45_stack_subroutine.md R256,
R257; spec/60_exceptions.md R335). -/

namespace Sys2Proof.Machine

/-! ## Storage -/

/-- What a cell that nothing has written reads as: `MEM_INIT`'s default, 0 (R7, D18). DESIGN CHOICE,
notes/assumptions/2.md. -/
def Memory.unlisted : Byte := 0

/-- An address is in the peripheral window (R76): $2000 to $2007, and $4014. -/
def inWindow (a : Word) : Bool := (0x2000#16 ≤ a && a ≤ 0x2007#16) || a == 0x4014#16

/-- The physical index of an address (R72): the low 8 KB select the 2 KB of RAM, four times. -/
def phys (a : Word) : Nat := if a < 0x2000#16 then (a &&& 0x07FF#16).toNat else a.toNat

/-- A physical index that names a cell of storage: the RAM, or MEM less the nine bytes of the window, which are never
read or written (R49). -/
def isStorageIndex (k : Nat) : Bool :=
  decide (k < 0x800) || (decide (0x2000 ≤ k) && decide (k < 0x10000) && !inWindow (BitVec.ofNat 16 k))

/-- The canonical form from an index on: indices strictly rising, each a cell of storage, no entry equal to what an
unlisted cell reads as. -/
def Memory.wfFrom (lo : Nat) : Memory → Bool
  | [] => true
  | (k, v) :: m => decide (lo ≤ k) && isStorageIndex k && v != Memory.unlisted && Memory.wfFrom (k + 1) m

/-- The canonical form of storage. -/
def Memory.wf (m : Memory) : Bool := Memory.wfFrom 0 m

/-- The byte of a cell. -/
def Memory.get : Memory → Nat → Byte
  | [], _ => Memory.unlisted
  | (k, v) :: m, a => if k = a then v else Memory.get m a

/-- Take a cell off the list. -/
def Memory.erase : Memory → Nat → Memory
  | [], _ => []
  | (k, w) :: m, a => if k = a then Memory.erase m a else (k, w) :: Memory.erase m a

/-- List a cell, before the first of a higher index. -/
def Memory.insert : Memory → Nat → Byte → Memory
  | [], a, v => [(a, v)]
  | (k, w) :: m, a, v => if a < k then (a, v) :: (k, w) :: m else (k, w) :: Memory.insert m a v

/-- Store a byte in a cell, keeping the canonical form: a byte equal to what an unlisted cell reads as is not listed. -/
def Memory.set (m : Memory) (a : Nat) (v : Byte) : Memory :=
  if v = Memory.unlisted then Memory.erase m a else Memory.insert (Memory.erase m a) a v

/-- Store bytes in consecutive cells. -/
def Memory.setAll : Memory → Nat → List Byte → Memory
  | m, _, [] => m
  | m, a, v :: vs => Memory.setAll (Memory.set m a v) (a + 1) vs

/-- The byte of plain storage an address selects, without any access of the device: what `memRead` returns outside the
window. -/
def peek (s : State) (a : Word) : Byte := Memory.get s.mem (phys a)

/-! ## The bus -/

/-- `MemRead(a, 1)` (R76, R80): the byte, and the state after the access. -/
def memRead (a : Word) (s : State) : Byte × State :=
  if inWindow a then
    let r := periphRead a s.ps
    (r.1, { s with ps := r.2 })
  else (peek s a, s)

/-- The address of byte `i` of a page (R77). -/
def pageAddr (page : Byte) (i : Nat) : Word := mkWord page (BitVec.ofNat 8 i)

/-- The reads of an OAM DMA, in ascending order (R77, D23): `n` more bytes from byte `i` on. -/
def dmaReads (page : Byte) : Nat → Nat → Vector Byte 256 → State → Vector Byte 256 × State
  | 0, _, d, s => (d, s)
  | n + 1, i, d, s =>
    let r := memRead (pageAddr page i) s
    dmaReads page n (i + 1) (d.setIfInBounds i r.1) r.2

/-- OAM DMA (R77): 256 reads through the bus, then the bytes go to the device. -/
def oamDMA (page : Byte) (s : State) : State :=
  let r := dmaReads page 256 0 (Vector.replicate 256 0) s
  { r.2 with ps := periphDMA r.1 r.2.ps }

/-- `MemWrite(a, 1, v)` (R76, R77, R81). -/
def memWrite (a : Word) (v : Byte) (s : State) : State :=
  if a = 0x4014#16 then oamDMA v s
  else if inWindow a then { s with ps := periphWrite a v s.ps }
  else { s with mem := Memory.set s.mem (phys a) v }

/-- `MemReadWord(a)` (R83): low byte first; the second address wraps. -/
def memReadWord (a : Word) (s : State) : Word × State :=
  let lo := memRead a s
  let hi := memRead (a + 1) lo.2
  (mkWord hi.1 lo.1, hi.2)

/-! ## The stack -/

/-- The address the stack pointer names (R34, R90): page 1. -/
def stackAddr (sp : Byte) : Word := mkWord 0x01 sp

/-- `Push(v)` (R90): write, then decrement SP modulo 256. -/
def push (v : Byte) (s : State) : State :=
  let t := memWrite (stackAddr s.SP) v s
  { t with SP := t.SP - 1 }

/-- Push a word, the high byte first (R92). -/
def pushWord (w : Word) (s : State) : State := push (loByte w) (push (hiByte w) s)

/-- `Pop()` (R91): increment SP modulo 256, then read. -/
def pop (s : State) : Byte × State :=
  let t := { s with SP := s.SP + 1 }
  memRead (stackAddr t.SP) t

/-- Pop a word, the low byte first (R92). -/
def popWord (s : State) : Word × State :=
  let lo := pop s
  let hi := pop lo.2
  (mkWord hi.1 lo.1, hi.2)

/-! ## The program counter -/

/-- The length increment that ends an instruction (R37): PC + n modulo 65536. -/
def advance (n : Nat) (s : State) : State := { s with PC := s.PC + BitVec.ofNat 16 n }

/-- A control transfer (R13). -/
def jumpTo (target : Word) (s : State) : State := { s with PC := target }

/-! ## Entering a handler and returning from one -/

/-- The NMI vector (R79). -/
def nmiVector : Word := 0xFFFA

/-- The Reset vector (R79). -/
def resetVector : Word := 0xFFFC

/-- The vector of IRQ and BRK (R79). -/
def irqVector : Word := 0xFFFE

/-- Load PC from a vector through the bus (R79, R83). -/
def loadVector (vector : Word) (s : State) : State :=
  let r := memReadWord vector s
  jumpTo r.1 r.2

/-- Entering a handler, for BRK (R257), NMI and IRQ (R335): push the return address, high byte first; write B, then push
the packed flags; set I; load PC from the vector. -/
def enterHandler (vector ret : Word) (brk : Bool) (s : State) : State :=
  let s := pushWord ret s
  let s := { s with B := brk }
  let s := push (packFlags s) s
  loadVector vector { s with I := true }

/-- Returning from a handler (R256, R338): the flags are popped first, then the address, low byte first. -/
def returnFromHandler (s : State) : State :=
  let p := pop s
  let r := popWord (unpackFlags p.1 p.2)
  jumpTo r.1 r.2

end Sys2Proof.Machine
end

