-- ==== Sys2Proof/Machine/Operands.lean ====
section
/-! DEFINITION. Operand resolution (spec/40_addressing_modes.md R160 to R178): the effective address of every mode, the
boundary-cross report, `LoadOperand`, `StoreResult`, and the three shapes of an instruction with an operand: one that
reads it, one that stores to it, one that reads and writes it. -/

namespace Sys2Proof.Machine

/-- The length of an instruction with a memory operand (R122, R123). -/
def memLength : MemOperand → Nat
  | .zp _ | .zpx _ | .zpy _ | .izx _ | .izy _ => 2
  | .abs _ | .abx _ | .aby _ => 3

/-- The length of an instruction with a read operand (R122, R123). -/
def sourceLength : Source → Nat
  | .imm _ => 2
  | .mem m => memLength m

/-- The length of an instruction with a read-modify-write operand (R122, R123). -/
def placeLength : Place → Nat
  | .acc => 1
  | .mem m => memLength m

/-- A zero-page address (R124): the byte with a high byte of 0. -/
def zeroPage (b : Byte) : Word := mkWord 0 b

/-- The pointer in the zero page at `z` (R172, R173): both its bytes lie in page 0, so the high byte of a pointer at
$FF comes from $00 (D6). -/
def zeroPagePointer (z : Byte) (s : State) : Word × State :=
  let lo := memRead (zeroPage z) s
  let hi := memRead (zeroPage (z + 1)) lo.2
  (mkWord hi.1 lo.1, hi.2)

/-- The effective address of a memory operand, after the pointer reads of IZX and IZY (R160, R165 to R167, R169, R170,
R172, R173). -/
def effectiveAddr (m : MemOperand) (s : State) : Word × State :=
  match m with
  | .zp b1 => (zeroPage b1, s)
  | .zpx b1 => (zeroPage (b1 + s.X), s)
  | .zpy b1 => (zeroPage (b1 + s.Y), s)
  | .abs addr => (addr, s)
  | .abx addr => (addr + s.X.setWidth 16, s)
  | .aby addr => (addr + s.Y.setWidth 16, s)
  | .izx b1 => zeroPagePointer (b1 + s.X) s
  | .izy b1 =>
    let p := zeroPagePointer b1 s
    (p.1 + s.Y.setWidth 16, p.2)

/-- The address before the index is added, in the modes that can report a crossing (R161). -/
def indexBase (m : MemOperand) (s : State) : Option Word :=
  match m with
  | .abx addr | .aby addr => some addr
  | .izy b1 => some (zeroPagePointer b1 s).1
  | .zp _ | .zpx _ | .zpy _ | .abs _ | .izx _ => none

/-- `cross` (R161): adding the index changed the high byte. -/
def crosses (m : MemOperand) (s : State) : Bool :=
  match indexBase m s with
  | none => false
  | some base => hiByte base != hiByte (effectiveAddr m s).1

/-- The target of JMP indirect (R171): the high byte is read from the page of the low byte (D7), unless the switch of
Config.lean says otherwise. -/
def indirectTarget (ptr : Word) (s : State) : Word × State :=
  let lo := memRead ptr s
  let second := if Config.jmpIndPageWrap then mkWord (hiByte ptr) (loByte ptr + 1) else ptr + 1
  let hi := memRead second lo.2
  (mkWord hi.1 lo.1, hi.2)

/-- `LoadOperand()` for the modes of a read operand (R174). -/
def loadOperand (src : Source) (s : State) : Byte × State :=
  match src with
  | .imm b1 => (b1, s)
  | .mem m =>
    let ea := effectiveAddr m s
    memRead ea.1 ea.2

/-- The operand as the instruction finds it: the byte, and where `StoreResult` will put the result (`none` is the
accumulator). One resolution serves the read and the write (R160, R174). -/
def loadPlace (p : Place) (s : State) : Byte × Option Word × State :=
  match p with
  | .acc => (s.A, none, s)
  | .mem m =>
    let ea := effectiveAddr m s
    let r := memRead ea.1 ea.2
    (r.1, some ea.1, r.2)

/-- `StoreResult(v)` (R176): one write, to the accumulator or to memory. -/
def storeResult (dst : Option Word) (v : Byte) (s : State) : State :=
  match dst with
  | none => { s with A := v }
  | some ea => memWrite ea v s

/-- An instruction that reads its operand once and then acts on the core (R174). -/
def readOperand (src : Source) (act : Byte → State → State) (s : State) : State :=
  let m := loadOperand src s
  advance (sourceLength src) (act m.1 m.2)

/-- An instruction that stores a byte of the core and does not read its target first (R174, R286). -/
def storeOperand (dst : MemOperand) (v : Byte) (s : State) : State :=
  let ea := effectiveAddr dst s
  advance (memLength dst) (memWrite ea.1 v ea.2)

/-- An instruction that reads its operand, computes a byte from it, writes it back and sets Z and N from it (R175, R176,
R207); `act` also gives the effect on the core before the write (the carry of a shift). -/
def modifyOperand (p : Place) (act : Byte → State → Byte × State) (s : State) : State :=
  let v := loadPlace p s
  let r := act v.1 v.2.2
  advance (placeLength p) (setZN r.1 (storeResult v.2.1 r.1 r.2))

end Sys2Proof.Machine
end

