-- ==== Sys2Proof/Machine/Arithmetic.lean ====
section
/-! DEFINITION. The arithmetic instructions ADC and SBC (spec/41_arithmetic.md R190 to R193). D is ignored: both are binary (R42). One definition for each row of
the opcode table, over the shared operations of this file and of Operands.lean. -/

namespace Sys2Proof.Machine

/-- ADC (R190): A + M + C; C, V, Z, N from the sum. -/
def adc (src : Source) (s : State) : State :=
  readOperand src (fun m t =>
    let r := addWithCarry t.A m t.C
    setZN r.value { t with A := r.value, C := r.carry, V := r.overflow }) s

/-- SBC (R191), in the complement form: A + (M ^ $FF) + C. -/
def sbc (src : Source) (s : State) : State :=
  readOperand src (fun m t =>
    let r := addWithCarry t.A (m ^^^ 0xFF#8) t.C
    setZN r.value { t with A := r.value, C := r.carry, V := r.overflow }) s

/-- ADC, immediate: opcode $69, rule R190. -/
def execAdcImm (b1 : Byte) (s : State) : Host.Outcome State Fault Refusal := .next (adc (.imm b1) s)

/-- ADC, zero-page: opcode $65, rule R190. -/
def execAdcZp (b1 : Byte) (s : State) : Host.Outcome State Fault Refusal := .next (adc (.mem (.zp b1)) s)

/-- ADC, zero-page,X: opcode $75, rule R190. -/
def execAdcZpx (b1 : Byte) (s : State) : Host.Outcome State Fault Refusal := .next (adc (.mem (.zpx b1)) s)

/-- ADC, indexed-indirect: opcode $61, rule R190. -/
def execAdcIzx (b1 : Byte) (s : State) : Host.Outcome State Fault Refusal := .next (adc (.mem (.izx b1)) s)

/-- ADC, indirect-indexed: opcode $71, rule R190. -/
def execAdcIzy (b1 : Byte) (s : State) : Host.Outcome State Fault Refusal := .next (adc (.mem (.izy b1)) s)

/-- ADC, absolute: opcode $6D, rule R190. -/
def execAdcAbs (addr : Word) (s : State) : Host.Outcome State Fault Refusal := .next (adc (.mem (.abs addr)) s)

/-- ADC, absolute,X: opcode $7D, rule R190. -/
def execAdcAbx (addr : Word) (s : State) : Host.Outcome State Fault Refusal := .next (adc (.mem (.abx addr)) s)

/-- ADC, absolute,Y: opcode $79, rule R190. -/
def execAdcAby (addr : Word) (s : State) : Host.Outcome State Fault Refusal := .next (adc (.mem (.aby addr)) s)

/-- SBC, immediate: opcode $E9, rule R191. -/
def execSbcImm (b1 : Byte) (s : State) : Host.Outcome State Fault Refusal := .next (sbc (.imm b1) s)

/-- SBC, zero-page: opcode $E5, rule R191. -/
def execSbcZp (b1 : Byte) (s : State) : Host.Outcome State Fault Refusal := .next (sbc (.mem (.zp b1)) s)

/-- SBC, zero-page,X: opcode $F5, rule R191. -/
def execSbcZpx (b1 : Byte) (s : State) : Host.Outcome State Fault Refusal := .next (sbc (.mem (.zpx b1)) s)

/-- SBC, indexed-indirect: opcode $E1, rule R191. -/
def execSbcIzx (b1 : Byte) (s : State) : Host.Outcome State Fault Refusal := .next (sbc (.mem (.izx b1)) s)

/-- SBC, indirect-indexed: opcode $F1, rule R191. -/
def execSbcIzy (b1 : Byte) (s : State) : Host.Outcome State Fault Refusal := .next (sbc (.mem (.izy b1)) s)

/-- SBC, absolute: opcode $ED, rule R191. -/
def execSbcAbs (addr : Word) (s : State) : Host.Outcome State Fault Refusal := .next (sbc (.mem (.abs addr)) s)

/-- SBC, absolute,X: opcode $FD, rule R191. -/
def execSbcAbx (addr : Word) (s : State) : Host.Outcome State Fault Refusal := .next (sbc (.mem (.abx addr)) s)

/-- SBC, absolute,Y: opcode $F9, rule R191. -/
def execSbcAby (addr : Word) (s : State) : Host.Outcome State Fault Refusal := .next (sbc (.mem (.aby addr)) s)

end Sys2Proof.Machine
end

