-- ==== Sys2Proof/Machine/Branch.lean ====
section
/-! DEFINITION. The conditional branches and JMP (spec/44_branches_jumps.md R230 to R240). PC is the address of the
instruction's opcode byte. One definition for each row of
the opcode table, over the shared operations of this file and of Operands.lean. -/

namespace Sys2Proof.Machine

/-- A conditional branch (R230): when the condition holds the signed offset is added to PC; then the length increment
of 2 applies, taken or not. -/
def branch (cond : Bool) (b1 : Byte) (s : State) : State :=
  advance 2 (if cond then jumpTo (s.PC + b1.signExtend 16) s else s)

/-- JMP (R239): PC takes the target; no length increment. -/
def jmp (target : Word × State) : State := jumpTo target.1 target.2

/-- BCC, relative: opcode $90, rule R231. -/
def execBcc (b1 : Byte) (s : State) : Host.Outcome State Fault Refusal := .next (branch (!s.C) b1 s)

/-- BCS, relative: opcode $B0, rule R232. -/
def execBcs (b1 : Byte) (s : State) : Host.Outcome State Fault Refusal := .next (branch s.C b1 s)

/-- BEQ, relative: opcode $F0, rule R233. -/
def execBeq (b1 : Byte) (s : State) : Host.Outcome State Fault Refusal := .next (branch s.Z b1 s)

/-- BMI, relative: opcode $30, rule R234. -/
def execBmi (b1 : Byte) (s : State) : Host.Outcome State Fault Refusal := .next (branch s.N b1 s)

/-- BNE, relative: opcode $D0, rule R235. -/
def execBne (b1 : Byte) (s : State) : Host.Outcome State Fault Refusal := .next (branch (!s.Z) b1 s)

/-- BPL, relative: opcode $10, rule R236. -/
def execBpl (b1 : Byte) (s : State) : Host.Outcome State Fault Refusal := .next (branch (!s.N) b1 s)

/-- BVC, relative: opcode $50, rule R237. -/
def execBvc (b1 : Byte) (s : State) : Host.Outcome State Fault Refusal := .next (branch (!s.V) b1 s)

/-- BVS, relative: opcode $70, rule R238. -/
def execBvs (b1 : Byte) (s : State) : Host.Outcome State Fault Refusal := .next (branch s.V b1 s)

/-- JMP, absolute: opcode $4C, rule R239. -/
def execJmpAbs (addr : Word) (s : State) : Host.Outcome State Fault Refusal := .next (jmp (addr, s))

/-- JMP, indirect: opcode $6C, rule R239. -/
def execJmpInd (addr : Word) (s : State) : Host.Outcome State Fault Refusal := .next (jmp (indirectTarget addr s))

end Sys2Proof.Machine
end

