-- ==== Sys2Proof/Machine/Compare.lean ====
section
/-! DEFINITION. The compare and bit-test instructions (spec/43_compare_bit.md R220 to R224). They write flags only. One definition for each row of
the opcode table, over the shared operations of this file and of Operands.lean. -/

namespace Sys2Proof.Machine

/-- CMP (R220). -/
def cmp (src : Source) (s : State) : State := readOperand src (fun m t => compareFlags t.A m t) s

/-- CPX (R221). -/
def cpx (src : Source) (s : State) : State := readOperand src (fun m t => compareFlags t.X m t) s

/-- CPY (R222). -/
def cpy (src : Source) (s : State) : State := readOperand src (fun m t => compareFlags t.Y m t) s

/-- BIT (R223). -/
def bitOp (src : Source) (s : State) : State := readOperand src (fun m t => bitFlags t.A m t) s

/-- CMP, immediate: opcode $C9, rule R220. -/
def execCmpImm (b1 : Byte) (s : State) : Host.Outcome State Fault Refusal := .next (cmp (.imm b1) s)

/-- CMP, zero-page: opcode $C5, rule R220. -/
def execCmpZp (b1 : Byte) (s : State) : Host.Outcome State Fault Refusal := .next (cmp (.mem (.zp b1)) s)

/-- CMP, zero-page,X: opcode $D5, rule R220. -/
def execCmpZpx (b1 : Byte) (s : State) : Host.Outcome State Fault Refusal := .next (cmp (.mem (.zpx b1)) s)

/-- CMP, indexed-indirect: opcode $C1, rule R220. -/
def execCmpIzx (b1 : Byte) (s : State) : Host.Outcome State Fault Refusal := .next (cmp (.mem (.izx b1)) s)

/-- CMP, indirect-indexed: opcode $D1, rule R220. -/
def execCmpIzy (b1 : Byte) (s : State) : Host.Outcome State Fault Refusal := .next (cmp (.mem (.izy b1)) s)

/-- CMP, absolute: opcode $CD, rule R220. -/
def execCmpAbs (addr : Word) (s : State) : Host.Outcome State Fault Refusal := .next (cmp (.mem (.abs addr)) s)

/-- CMP, absolute,X: opcode $DD, rule R220. -/
def execCmpAbx (addr : Word) (s : State) : Host.Outcome State Fault Refusal := .next (cmp (.mem (.abx addr)) s)

/-- CMP, absolute,Y: opcode $D9, rule R220. -/
def execCmpAby (addr : Word) (s : State) : Host.Outcome State Fault Refusal := .next (cmp (.mem (.aby addr)) s)

/-- CPX, immediate: opcode $E0, rule R221. -/
def execCpxImm (b1 : Byte) (s : State) : Host.Outcome State Fault Refusal := .next (cpx (.imm b1) s)

/-- CPX, zero-page: opcode $E4, rule R221. -/
def execCpxZp (b1 : Byte) (s : State) : Host.Outcome State Fault Refusal := .next (cpx (.mem (.zp b1)) s)

/-- CPX, absolute: opcode $EC, rule R221. -/
def execCpxAbs (addr : Word) (s : State) : Host.Outcome State Fault Refusal := .next (cpx (.mem (.abs addr)) s)

/-- CPY, immediate: opcode $C0, rule R222. -/
def execCpyImm (b1 : Byte) (s : State) : Host.Outcome State Fault Refusal := .next (cpy (.imm b1) s)

/-- CPY, zero-page: opcode $C4, rule R222. -/
def execCpyZp (b1 : Byte) (s : State) : Host.Outcome State Fault Refusal := .next (cpy (.mem (.zp b1)) s)

/-- CPY, absolute: opcode $CC, rule R222. -/
def execCpyAbs (addr : Word) (s : State) : Host.Outcome State Fault Refusal := .next (cpy (.mem (.abs addr)) s)

/-- BIT, zero-page: opcode $24, rule R223. -/
def execBitZp (b1 : Byte) (s : State) : Host.Outcome State Fault Refusal := .next (bitOp (.mem (.zp b1)) s)

/-- BIT, absolute: opcode $2C, rule R223. -/
def execBitAbs (addr : Word) (s : State) : Host.Outcome State Fault Refusal := .next (bitOp (.mem (.abs addr)) s)

end Sys2Proof.Machine
end

