-- ==== Sys2Proof/Machine/IncDec.lean ====
section
/-! DEFINITION. The increments and decrements, the flag instructions and NOP (spec/48_incdec_flags_nop.md R290 to R304). One definition for each row of
the opcode table, over the shared operations of this file and of Operands.lean. -/

namespace Sys2Proof.Machine

/-- INC (R290): the byte of memory plus 1, modulo 256. -/
def incOp (p : Place) (s : State) : State := modifyOperand p (fun v t => (v + 1, t)) s

/-- DEC (R291): the byte of memory minus 1, modulo 256. -/
def decOp (p : Place) (s : State) : State := modifyOperand p (fun v t => (v - 1, t)) s

/-- INX and DEX (R292, R294). -/
def countX (v : Byte) (s : State) : State := advance 1 (setZN v { s with X := v })

/-- INY and DEY (R293, R295). -/
def countY (v : Byte) (s : State) : State := advance 1 (setZN v { s with Y := v })

/-- INC, zero-page: opcode $E6, rule R290. -/
def execIncZp (b1 : Byte) (s : State) : Host.Outcome State Fault Refusal := .next (incOp (.mem (.zp b1)) s)

/-- INC, zero-page,X: opcode $F6, rule R290. -/
def execIncZpx (b1 : Byte) (s : State) : Host.Outcome State Fault Refusal := .next (incOp (.mem (.zpx b1)) s)

/-- INC, absolute: opcode $EE, rule R290. -/
def execIncAbs (addr : Word) (s : State) : Host.Outcome State Fault Refusal := .next (incOp (.mem (.abs addr)) s)

/-- INC, absolute,X: opcode $FE, rule R290. -/
def execIncAbx (addr : Word) (s : State) : Host.Outcome State Fault Refusal := .next (incOp (.mem (.abx addr)) s)

/-- DEC, zero-page: opcode $C6, rule R291. -/
def execDecZp (b1 : Byte) (s : State) : Host.Outcome State Fault Refusal := .next (decOp (.mem (.zp b1)) s)

/-- DEC, zero-page,X: opcode $D6, rule R291. -/
def execDecZpx (b1 : Byte) (s : State) : Host.Outcome State Fault Refusal := .next (decOp (.mem (.zpx b1)) s)

/-- DEC, absolute: opcode $CE, rule R291. -/
def execDecAbs (addr : Word) (s : State) : Host.Outcome State Fault Refusal := .next (decOp (.mem (.abs addr)) s)

/-- DEC, absolute,X: opcode $DE, rule R291. -/
def execDecAbx (addr : Word) (s : State) : Host.Outcome State Fault Refusal := .next (decOp (.mem (.abx addr)) s)

/-- INX, implicit: opcode $E8, rule R292. -/
def execInx (s : State) : Host.Outcome State Fault Refusal := .next (countX (s.X + 1) s)

/-- INY, implicit: opcode $C8, rule R293. -/
def execIny (s : State) : Host.Outcome State Fault Refusal := .next (countY (s.Y + 1) s)

/-- DEX, implicit: opcode $CA, rule R294. -/
def execDex (s : State) : Host.Outcome State Fault Refusal := .next (countX (s.X - 1) s)

/-- DEY, implicit: opcode $88, rule R295. -/
def execDey (s : State) : Host.Outcome State Fault Refusal := .next (countY (s.Y - 1) s)

/-- CLC, implicit: opcode $18, rule R296. -/
def execClc (s : State) : Host.Outcome State Fault Refusal := .next (advance 1 { s with C := false })

/-- SEC, implicit: opcode $38, rule R297. -/
def execSec (s : State) : Host.Outcome State Fault Refusal := .next (advance 1 { s with C := true })

/-- CLI, implicit: opcode $58, rule R298. -/
def execCli (s : State) : Host.Outcome State Fault Refusal := .next (advance 1 { s with I := false })

/-- SEI, implicit: opcode $78, rule R299. -/
def execSei (s : State) : Host.Outcome State Fault Refusal := .next (advance 1 { s with I := true })

/-- CLD, implicit: opcode $D8, rule R300. -/
def execCld (s : State) : Host.Outcome State Fault Refusal := .next (advance 1 { s with D := false })

/-- SED, implicit: opcode $F8, rule R301. -/
def execSed (s : State) : Host.Outcome State Fault Refusal := .next (advance 1 { s with D := true })

/-- CLV, implicit: opcode $B8, rule R302. -/
def execClv (s : State) : Host.Outcome State Fault Refusal := .next (advance 1 { s with V := false })

/-- NOP, implicit: opcode $EA, rule R303. -/
def execNop (s : State) : Host.Outcome State Fault Refusal := .next (advance 1 s)

end Sys2Proof.Machine
end

