-- ==== Sys2Proof/Machine/LoadStore.lean ====
section
/-! DEFINITION. The loads and stores (spec/47_load_store.md R280 to R286). One definition for each row of
the opcode table, over the shared operations of this file and of Operands.lean. -/

namespace Sys2Proof.Machine

/-- LDA (R280). -/
def lda (src : Source) (s : State) : State := readOperand src (fun m t => setZN m { t with A := m }) s

/-- LDX (R281). -/
def ldx (src : Source) (s : State) : State := readOperand src (fun m t => setZN m { t with X := m }) s

/-- LDY (R282). -/
def ldy (src : Source) (s : State) : State := readOperand src (fun m t => setZN m { t with Y := m }) s

/-- STA (R283). -/
def sta (dst : MemOperand) (s : State) : State := storeOperand dst s.A s

/-- STX (R284). -/
def stx (dst : MemOperand) (s : State) : State := storeOperand dst s.X s

/-- STY (R285). -/
def sty (dst : MemOperand) (s : State) : State := storeOperand dst s.Y s

/-- LDA, immediate: opcode $A9, rule R280. -/
def execLdaImm (b1 : Byte) (s : State) : Host.Outcome State Fault Refusal := .next (lda (.imm b1) s)

/-- LDA, zero-page: opcode $A5, rule R280. -/
def execLdaZp (b1 : Byte) (s : State) : Host.Outcome State Fault Refusal := .next (lda (.mem (.zp b1)) s)

/-- LDA, zero-page,X: opcode $B5, rule R280. -/
def execLdaZpx (b1 : Byte) (s : State) : Host.Outcome State Fault Refusal := .next (lda (.mem (.zpx b1)) s)

/-- LDA, indexed-indirect: opcode $A1, rule R280. -/
def execLdaIzx (b1 : Byte) (s : State) : Host.Outcome State Fault Refusal := .next (lda (.mem (.izx b1)) s)

/-- LDA, indirect-indexed: opcode $B1, rule R280. -/
def execLdaIzy (b1 : Byte) (s : State) : Host.Outcome State Fault Refusal := .next (lda (.mem (.izy b1)) s)

/-- LDA, absolute: opcode $AD, rule R280. -/
def execLdaAbs (addr : Word) (s : State) : Host.Outcome State Fault Refusal := .next (lda (.mem (.abs addr)) s)

/-- LDA, absolute,X: opcode $BD, rule R280. -/
def execLdaAbx (addr : Word) (s : State) : Host.Outcome State Fault Refusal := .next (lda (.mem (.abx addr)) s)

/-- LDA, absolute,Y: opcode $B9, rule R280. -/
def execLdaAby (addr : Word) (s : State) : Host.Outcome State Fault Refusal := .next (lda (.mem (.aby addr)) s)

/-- LDX, immediate: opcode $A2, rule R281. -/
def execLdxImm (b1 : Byte) (s : State) : Host.Outcome State Fault Refusal := .next (ldx (.imm b1) s)

/-- LDX, zero-page: opcode $A6, rule R281. -/
def execLdxZp (b1 : Byte) (s : State) : Host.Outcome State Fault Refusal := .next (ldx (.mem (.zp b1)) s)

/-- LDX, zero-page,Y: opcode $B6, rule R281. -/
def execLdxZpy (b1 : Byte) (s : State) : Host.Outcome State Fault Refusal := .next (ldx (.mem (.zpy b1)) s)

/-- LDX, absolute: opcode $AE, rule R281. -/
def execLdxAbs (addr : Word) (s : State) : Host.Outcome State Fault Refusal := .next (ldx (.mem (.abs addr)) s)

/-- LDX, absolute,Y: opcode $BE, rule R281. -/
def execLdxAby (addr : Word) (s : State) : Host.Outcome State Fault Refusal := .next (ldx (.mem (.aby addr)) s)

/-- LDY, immediate: opcode $A0, rule R282. -/
def execLdyImm (b1 : Byte) (s : State) : Host.Outcome State Fault Refusal := .next (ldy (.imm b1) s)

/-- LDY, zero-page: opcode $A4, rule R282. -/
def execLdyZp (b1 : Byte) (s : State) : Host.Outcome State Fault Refusal := .next (ldy (.mem (.zp b1)) s)

/-- LDY, zero-page,X: opcode $B4, rule R282. -/
def execLdyZpx (b1 : Byte) (s : State) : Host.Outcome State Fault Refusal := .next (ldy (.mem (.zpx b1)) s)

/-- LDY, absolute: opcode $AC, rule R282. -/
def execLdyAbs (addr : Word) (s : State) : Host.Outcome State Fault Refusal := .next (ldy (.mem (.abs addr)) s)

/-- LDY, absolute,X: opcode $BC, rule R282. -/
def execLdyAbx (addr : Word) (s : State) : Host.Outcome State Fault Refusal := .next (ldy (.mem (.abx addr)) s)

/-- STA, zero-page: opcode $85, rule R283. -/
def execStaZp (b1 : Byte) (s : State) : Host.Outcome State Fault Refusal := .next (sta (.zp b1) s)

/-- STA, zero-page,X: opcode $95, rule R283. -/
def execStaZpx (b1 : Byte) (s : State) : Host.Outcome State Fault Refusal := .next (sta (.zpx b1) s)

/-- STA, indexed-indirect: opcode $81, rule R283. -/
def execStaIzx (b1 : Byte) (s : State) : Host.Outcome State Fault Refusal := .next (sta (.izx b1) s)

/-- STA, indirect-indexed: opcode $91, rule R283. -/
def execStaIzy (b1 : Byte) (s : State) : Host.Outcome State Fault Refusal := .next (sta (.izy b1) s)

/-- STA, absolute: opcode $8D, rule R283. -/
def execStaAbs (addr : Word) (s : State) : Host.Outcome State Fault Refusal := .next (sta (.abs addr) s)

/-- STA, absolute,X: opcode $9D, rule R283. -/
def execStaAbx (addr : Word) (s : State) : Host.Outcome State Fault Refusal := .next (sta (.abx addr) s)

/-- STA, absolute,Y: opcode $99, rule R283. -/
def execStaAby (addr : Word) (s : State) : Host.Outcome State Fault Refusal := .next (sta (.aby addr) s)

/-- STX, zero-page: opcode $86, rule R284. -/
def execStxZp (b1 : Byte) (s : State) : Host.Outcome State Fault Refusal := .next (stx (.zp b1) s)

/-- STX, zero-page,Y: opcode $96, rule R284. -/
def execStxZpy (b1 : Byte) (s : State) : Host.Outcome State Fault Refusal := .next (stx (.zpy b1) s)

/-- STX, absolute: opcode $8E, rule R284. -/
def execStxAbs (addr : Word) (s : State) : Host.Outcome State Fault Refusal := .next (stx (.abs addr) s)

/-- STY, zero-page: opcode $84, rule R285. -/
def execStyZp (b1 : Byte) (s : State) : Host.Outcome State Fault Refusal := .next (sty (.zp b1) s)

/-- STY, zero-page,X: opcode $94, rule R285. -/
def execStyZpx (b1 : Byte) (s : State) : Host.Outcome State Fault Refusal := .next (sty (.zpx b1) s)

/-- STY, absolute: opcode $8C, rule R285. -/
def execStyAbs (addr : Word) (s : State) : Host.Outcome State Fault Refusal := .next (sty (.abs addr) s)

end Sys2Proof.Machine
end

