-- ==== Sys2Proof/Machine/Logic.lean ====
section
/-! DEFINITION. The logical, shift and rotate instructions (spec/42_logic_shift_rotate.md R200 to R207). One definition for each row of
the opcode table, over the shared operations of this file and of Operands.lean. -/

namespace Sys2Proof.Machine

/-- AND, ORA, EOR (R200 to R202): A takes the result, Z and N follow it. -/
def logic (op : Byte → Byte → Byte) (src : Source) (s : State) : State :=
  readOperand src (fun m t => setZN (op t.A m) { t with A := op t.A m }) s

/-- ASL, LSR, ROL, ROR (R203 to R206): `op` gives the byte and the outgoing bit from the operand and the old carry. -/
def shift (op : Byte → Bool → Shifted) (p : Place) (s : State) : State :=
  modifyOperand p (fun v t =>
    let r := op v t.C
    (r.value, { t with C := r.out })) s

/-- AND (R200). -/
def andOp (src : Source) (s : State) : State := logic (fun a m => a &&& m) src s

/-- ORA (R201). -/
def ora (src : Source) (s : State) : State := logic (fun a m => a ||| m) src s

/-- EOR (R202). -/
def eor (src : Source) (s : State) : State := logic (fun a m => a ^^^ m) src s

/-- ASL (R203): a 0 enters bit 0; the old carry is not used. -/
def asl (p : Place) (s : State) : State := shift (fun v _ => shiftLeft v false) p s

/-- LSR (R204): a 0 enters bit 7; the old carry is not used. -/
def lsr (p : Place) (s : State) : State := shift (fun v _ => shiftRight v false) p s

/-- ROL (R205): the old carry enters bit 0. -/
def rol (p : Place) (s : State) : State := shift shiftLeft p s

/-- ROR (R206): the old carry enters bit 7. -/
def ror (p : Place) (s : State) : State := shift shiftRight p s

/-- AND, immediate: opcode $29, rule R200. -/
def execAndImm (b1 : Byte) (s : State) : Host.Outcome State Fault Refusal := .next (andOp (.imm b1) s)

/-- AND, zero-page: opcode $25, rule R200. -/
def execAndZp (b1 : Byte) (s : State) : Host.Outcome State Fault Refusal := .next (andOp (.mem (.zp b1)) s)

/-- AND, zero-page,X: opcode $35, rule R200. -/
def execAndZpx (b1 : Byte) (s : State) : Host.Outcome State Fault Refusal := .next (andOp (.mem (.zpx b1)) s)

/-- AND, indexed-indirect: opcode $21, rule R200. -/
def execAndIzx (b1 : Byte) (s : State) : Host.Outcome State Fault Refusal := .next (andOp (.mem (.izx b1)) s)

/-- AND, indirect-indexed: opcode $31, rule R200. -/
def execAndIzy (b1 : Byte) (s : State) : Host.Outcome State Fault Refusal := .next (andOp (.mem (.izy b1)) s)

/-- AND, absolute: opcode $2D, rule R200. -/
def execAndAbs (addr : Word) (s : State) : Host.Outcome State Fault Refusal := .next (andOp (.mem (.abs addr)) s)

/-- AND, absolute,X: opcode $3D, rule R200. -/
def execAndAbx (addr : Word) (s : State) : Host.Outcome State Fault Refusal := .next (andOp (.mem (.abx addr)) s)

/-- AND, absolute,Y: opcode $39, rule R200. -/
def execAndAby (addr : Word) (s : State) : Host.Outcome State Fault Refusal := .next (andOp (.mem (.aby addr)) s)

/-- ORA, immediate: opcode $09, rule R201. -/
def execOraImm (b1 : Byte) (s : State) : Host.Outcome State Fault Refusal := .next (ora (.imm b1) s)

/-- ORA, zero-page: opcode $05, rule R201. -/
def execOraZp (b1 : Byte) (s : State) : Host.Outcome State Fault Refusal := .next (ora (.mem (.zp b1)) s)

/-- ORA, zero-page,X: opcode $15, rule R201. -/
def execOraZpx (b1 : Byte) (s : State) : Host.Outcome State Fault Refusal := .next (ora (.mem (.zpx b1)) s)

/-- ORA, indexed-indirect: opcode $01, rule R201. -/
def execOraIzx (b1 : Byte) (s : State) : Host.Outcome State Fault Refusal := .next (ora (.mem (.izx b1)) s)

/-- ORA, indirect-indexed: opcode $11, rule R201. -/
def execOraIzy (b1 : Byte) (s : State) : Host.Outcome State Fault Refusal := .next (ora (.mem (.izy b1)) s)

/-- ORA, absolute: opcode $0D, rule R201. -/
def execOraAbs (addr : Word) (s : State) : Host.Outcome State Fault Refusal := .next (ora (.mem (.abs addr)) s)

/-- ORA, absolute,X: opcode $1D, rule R201. -/
def execOraAbx (addr : Word) (s : State) : Host.Outcome State Fault Refusal := .next (ora (.mem (.abx addr)) s)

/-- ORA, absolute,Y: opcode $19, rule R201. -/
def execOraAby (addr : Word) (s : State) : Host.Outcome State Fault Refusal := .next (ora (.mem (.aby addr)) s)

/-- EOR, immediate: opcode $49, rule R202. -/
def execEorImm (b1 : Byte) (s : State) : Host.Outcome State Fault Refusal := .next (eor (.imm b1) s)

/-- EOR, zero-page: opcode $45, rule R202. -/
def execEorZp (b1 : Byte) (s : State) : Host.Outcome State Fault Refusal := .next (eor (.mem (.zp b1)) s)

/-- EOR, zero-page,X: opcode $55, rule R202. -/
def execEorZpx (b1 : Byte) (s : State) : Host.Outcome State Fault Refusal := .next (eor (.mem (.zpx b1)) s)

/-- EOR, indexed-indirect: opcode $41, rule R202. -/
def execEorIzx (b1 : Byte) (s : State) : Host.Outcome State Fault Refusal := .next (eor (.mem (.izx b1)) s)

/-- EOR, indirect-indexed: opcode $51, rule R202. -/
def execEorIzy (b1 : Byte) (s : State) : Host.Outcome State Fault Refusal := .next (eor (.mem (.izy b1)) s)

/-- EOR, absolute: opcode $4D, rule R202. -/
def execEorAbs (addr : Word) (s : State) : Host.Outcome State Fault Refusal := .next (eor (.mem (.abs addr)) s)

/-- EOR, absolute,X: opcode $5D, rule R202. -/
def execEorAbx (addr : Word) (s : State) : Host.Outcome State Fault Refusal := .next (eor (.mem (.abx addr)) s)

/-- EOR, absolute,Y: opcode $59, rule R202. -/
def execEorAby (addr : Word) (s : State) : Host.Outcome State Fault Refusal := .next (eor (.mem (.aby addr)) s)

/-- ASL, accumulator: opcode $0A, rule R203. -/
def execAslAcc (s : State) : Host.Outcome State Fault Refusal := .next (asl .acc s)

/-- ASL, zero-page: opcode $06, rule R203. -/
def execAslZp (b1 : Byte) (s : State) : Host.Outcome State Fault Refusal := .next (asl (.mem (.zp b1)) s)

/-- ASL, zero-page,X: opcode $16, rule R203. -/
def execAslZpx (b1 : Byte) (s : State) : Host.Outcome State Fault Refusal := .next (asl (.mem (.zpx b1)) s)

/-- ASL, absolute: opcode $0E, rule R203. -/
def execAslAbs (addr : Word) (s : State) : Host.Outcome State Fault Refusal := .next (asl (.mem (.abs addr)) s)

/-- ASL, absolute,X: opcode $1E, rule R203. -/
def execAslAbx (addr : Word) (s : State) : Host.Outcome State Fault Refusal := .next (asl (.mem (.abx addr)) s)

/-- LSR, accumulator: opcode $4A, rule R204. -/
def execLsrAcc (s : State) : Host.Outcome State Fault Refusal := .next (lsr .acc s)

/-- LSR, zero-page: opcode $46, rule R204. -/
def execLsrZp (b1 : Byte) (s : State) : Host.Outcome State Fault Refusal := .next (lsr (.mem (.zp b1)) s)

/-- LSR, zero-page,X: opcode $56, rule R204. -/
def execLsrZpx (b1 : Byte) (s : State) : Host.Outcome State Fault Refusal := .next (lsr (.mem (.zpx b1)) s)

/-- LSR, absolute: opcode $4E, rule R204. -/
def execLsrAbs (addr : Word) (s : State) : Host.Outcome State Fault Refusal := .next (lsr (.mem (.abs addr)) s)

/-- LSR, absolute,X: opcode $5E, rule R204. -/
def execLsrAbx (addr : Word) (s : State) : Host.Outcome State Fault Refusal := .next (lsr (.mem (.abx addr)) s)

/-- ROL, accumulator: opcode $2A, rule R205. -/
def execRolAcc (s : State) : Host.Outcome State Fault Refusal := .next (rol .acc s)

/-- ROL, zero-page: opcode $26, rule R205. -/
def execRolZp (b1 : Byte) (s : State) : Host.Outcome State Fault Refusal := .next (rol (.mem (.zp b1)) s)

/-- ROL, zero-page,X: opcode $36, rule R205. -/
def execRolZpx (b1 : Byte) (s : State) : Host.Outcome State Fault Refusal := .next (rol (.mem (.zpx b1)) s)

/-- ROL, absolute: opcode $2E, rule R205. -/
def execRolAbs (addr : Word) (s : State) : Host.Outcome State Fault Refusal := .next (rol (.mem (.abs addr)) s)

/-- ROL, absolute,X: opcode $3E, rule R205. -/
def execRolAbx (addr : Word) (s : State) : Host.Outcome State Fault Refusal := .next (rol (.mem (.abx addr)) s)

/-- ROR, accumulator: opcode $6A, rule R206. -/
def execRorAcc (s : State) : Host.Outcome State Fault Refusal := .next (ror .acc s)

/-- ROR, zero-page: opcode $66, rule R206. -/
def execRorZp (b1 : Byte) (s : State) : Host.Outcome State Fault Refusal := .next (ror (.mem (.zp b1)) s)

/-- ROR, zero-page,X: opcode $76, rule R206. -/
def execRorZpx (b1 : Byte) (s : State) : Host.Outcome State Fault Refusal := .next (ror (.mem (.zpx b1)) s)

/-- ROR, absolute: opcode $6E, rule R206. -/
def execRorAbs (addr : Word) (s : State) : Host.Outcome State Fault Refusal := .next (ror (.mem (.abs addr)) s)

/-- ROR, absolute,X: opcode $7E, rule R206. -/
def execRorAbx (addr : Word) (s : State) : Host.Outcome State Fault Refusal := .next (ror (.mem (.abx addr)) s)

end Sys2Proof.Machine
end

