-- ==== Sys2Proof/Machine/Stack.lean ====
section
/-! DEFINITION. The stack and subroutine instructions (spec/45_stack_subroutine.md R250 to R258). One definition for each row of
the opcode table, over the shared operations of this file and of Operands.lean. -/

namespace Sys2Proof.Machine

/-- PHA (R250). -/
def pha (s : State) : State := advance 1 (push s.A s)

/-- PLA (R251). -/
def pla (s : State) : State :=
  let r := pop s
  advance 1 (setZN r.1 { r.2 with A := r.1 })

/-- PHP (R252): B is set before the flags are packed (D9). -/
def php (s : State) : State :=
  let s := { s with B := true }
  advance 1 (push (packFlags s) s)

/-- PLP (R253): all seven flags, from the popped byte. -/
def plp (s : State) : State :=
  let r := pop s
  advance 1 (unpackFlags r.1 r.2)

/-- JSR (R254): the address of the instruction's last byte is pushed; no length increment. -/
def callSubroutine (target : Word) (s : State) : State := jumpTo target (pushWord (s.PC + 2) s)

/-- RTS (R255): the popped word, and then RTS's own length increment. -/
def rtsOp (s : State) : State :=
  let r := popWord s
  advance 1 (jumpTo r.1 r.2)

/-- BRK (R257): the entry sequence with PC + 2 as return address and B = 1, to the vector at $FFFE. -/
def brkOp (s : State) : State := enterHandler irqVector (s.PC + 2) true s

/-- PHA, implicit: opcode $48, rule R250. -/
def execPha (s : State) : Host.Outcome State Fault Refusal := .next (pha s)

/-- PLA, implicit: opcode $68, rule R251. -/
def execPla (s : State) : Host.Outcome State Fault Refusal := .next (pla s)

/-- PHP, implicit: opcode $08, rule R252. -/
def execPhp (s : State) : Host.Outcome State Fault Refusal := .next (php s)

/-- PLP, implicit: opcode $28, rule R253. -/
def execPlp (s : State) : Host.Outcome State Fault Refusal := .next (plp s)

/-- JSR, absolute: opcode $20, rule R254. -/
def execJsr (addr : Word) (s : State) : Host.Outcome State Fault Refusal := .next (callSubroutine addr s)

/-- RTS, implicit: opcode $60, rule R255. -/
def execRts (s : State) : Host.Outcome State Fault Refusal := .next (rtsOp s)

/-- RTI, implicit: opcode $40, rule R256. -/
def execRti (s : State) : Host.Outcome State Fault Refusal := .next (returnFromHandler s)

/-- BRK, implicit: opcode $00, rule R257. -/
def execBrk (s : State) : Host.Outcome State Fault Refusal := .next (brkOp s)

end Sys2Proof.Machine
end

