-- ==== Sys2Proof/Machine/Transfer.lean ====
section
/-! DEFINITION. The register transfers (spec/46_transfers.md R270 to R276). One definition for each row of
the opcode table, over the shared operations of this file and of Operands.lean. -/

namespace Sys2Proof.Machine

/-- A transfer that sets Z and N from its destination (R270 to R274); `put` writes the destination. -/
def transfer (v : Byte) (put : State → State) (s : State) : State := advance 1 (setZN v (put s))

/-- TAX, implicit: opcode $AA, rule R270. -/
def execTax (s : State) : Host.Outcome State Fault Refusal := .next (transfer s.A (fun t => { t with X := s.A }) s)

/-- TAY, implicit: opcode $A8, rule R271. -/
def execTay (s : State) : Host.Outcome State Fault Refusal := .next (transfer s.A (fun t => { t with Y := s.A }) s)

/-- TXA, implicit: opcode $8A, rule R272. -/
def execTxa (s : State) : Host.Outcome State Fault Refusal := .next (transfer s.X (fun t => { t with A := s.X }) s)

/-- TYA, implicit: opcode $98, rule R273. -/
def execTya (s : State) : Host.Outcome State Fault Refusal := .next (transfer s.Y (fun t => { t with A := s.Y }) s)

/-- TSX, implicit: opcode $BA, rule R274. -/
def execTsx (s : State) : Host.Outcome State Fault Refusal := .next (transfer s.SP (fun t => { t with X := s.SP }) s)

/-- TXS, implicit: opcode $9A, rule R275. -/
def execTxs (s : State) : Host.Outcome State Fault Refusal := .next (advance 1 { s with SP := s.X })

end Sys2Proof.Machine
end

