-- ==== Sys2Proof/Machine/Dispatch.lean ====
section
/-! DEFINITION. The meaning of every instruction: one arm for each constructor of `Instr`. -/

namespace Sys2Proof.Machine

def exec (i : Instr) (s : State) : Host.Outcome State Fault Refusal :=
  match i with
  -- Arithmetic.lean
    | .adcImm b1 => Sys2Proof.Machine.execAdcImm b1 s
    | .adcZp b1 => Sys2Proof.Machine.execAdcZp b1 s
    | .adcZpx b1 => Sys2Proof.Machine.execAdcZpx b1 s
    | .adcIzx b1 => Sys2Proof.Machine.execAdcIzx b1 s
    | .adcIzy b1 => Sys2Proof.Machine.execAdcIzy b1 s
    | .adcAbs addr => Sys2Proof.Machine.execAdcAbs addr s
    | .adcAbx addr => Sys2Proof.Machine.execAdcAbx addr s
    | .adcAby addr => Sys2Proof.Machine.execAdcAby addr s
    | .sbcImm b1 => Sys2Proof.Machine.execSbcImm b1 s
    | .sbcZp b1 => Sys2Proof.Machine.execSbcZp b1 s
    | .sbcZpx b1 => Sys2Proof.Machine.execSbcZpx b1 s
    | .sbcIzx b1 => Sys2Proof.Machine.execSbcIzx b1 s
    | .sbcIzy b1 => Sys2Proof.Machine.execSbcIzy b1 s
    | .sbcAbs addr => Sys2Proof.Machine.execSbcAbs addr s
    | .sbcAbx addr => Sys2Proof.Machine.execSbcAbx addr s
    | .sbcAby addr => Sys2Proof.Machine.execSbcAby addr s
  -- Logic.lean
    | .andImm b1 => Sys2Proof.Machine.execAndImm b1 s
    | .andZp b1 => Sys2Proof.Machine.execAndZp b1 s
    | .andZpx b1 => Sys2Proof.Machine.execAndZpx b1 s
    | .andIzx b1 => Sys2Proof.Machine.execAndIzx b1 s
    | .andIzy b1 => Sys2Proof.Machine.execAndIzy b1 s
    | .andAbs addr => Sys2Proof.Machine.execAndAbs addr s
    | .andAbx addr => Sys2Proof.Machine.execAndAbx addr s
    | .andAby addr => Sys2Proof.Machine.execAndAby addr s
    | .oraImm b1 => Sys2Proof.Machine.execOraImm b1 s
    | .oraZp b1 => Sys2Proof.Machine.execOraZp b1 s
    | .oraZpx b1 => Sys2Proof.Machine.execOraZpx b1 s
    | .oraIzx b1 => Sys2Proof.Machine.execOraIzx b1 s
    | .oraIzy b1 => Sys2Proof.Machine.execOraIzy b1 s
    | .oraAbs addr => Sys2Proof.Machine.execOraAbs addr s
    | .oraAbx addr => Sys2Proof.Machine.execOraAbx addr s
    | .oraAby addr => Sys2Proof.Machine.execOraAby addr s
    | .eorImm b1 => Sys2Proof.Machine.execEorImm b1 s
    | .eorZp b1 => Sys2Proof.Machine.execEorZp b1 s
    | .eorZpx b1 => Sys2Proof.Machine.execEorZpx b1 s
    | .eorIzx b1 => Sys2Proof.Machine.execEorIzx b1 s
    | .eorIzy b1 => Sys2Proof.Machine.execEorIzy b1 s
    | .eorAbs addr => Sys2Proof.Machine.execEorAbs addr s
    | .eorAbx addr => Sys2Proof.Machine.execEorAbx addr s
    | .eorAby addr => Sys2Proof.Machine.execEorAby addr s
    | .aslAcc => Sys2Proof.Machine.execAslAcc s
    | .aslZp b1 => Sys2Proof.Machine.execAslZp b1 s
    | .aslZpx b1 => Sys2Proof.Machine.execAslZpx b1 s
    | .aslAbs addr => Sys2Proof.Machine.execAslAbs addr s
    | .aslAbx addr => Sys2Proof.Machine.execAslAbx addr s
    | .lsrAcc => Sys2Proof.Machine.execLsrAcc s
    | .lsrZp b1 => Sys2Proof.Machine.execLsrZp b1 s
    | .lsrZpx b1 => Sys2Proof.Machine.execLsrZpx b1 s
    | .lsrAbs addr => Sys2Proof.Machine.execLsrAbs addr s
    | .lsrAbx addr => Sys2Proof.Machine.execLsrAbx addr s
    | .rolAcc => Sys2Proof.Machine.execRolAcc s
    | .rolZp b1 => Sys2Proof.Machine.execRolZp b1 s
    | .rolZpx b1 => Sys2Proof.Machine.execRolZpx b1 s
    | .rolAbs addr => Sys2Proof.Machine.execRolAbs addr s
    | .rolAbx addr => Sys2Proof.Machine.execRolAbx addr s
    | .rorAcc => Sys2Proof.Machine.execRorAcc s
    | .rorZp b1 => Sys2Proof.Machine.execRorZp b1 s
    | .rorZpx b1 => Sys2Proof.Machine.execRorZpx b1 s
    | .rorAbs addr => Sys2Proof.Machine.execRorAbs addr s
    | .rorAbx addr => Sys2Proof.Machine.execRorAbx addr s
  -- Compare.lean
    | .cmpImm b1 => Sys2Proof.Machine.execCmpImm b1 s
    | .cmpZp b1 => Sys2Proof.Machine.execCmpZp b1 s
    | .cmpZpx b1 => Sys2Proof.Machine.execCmpZpx b1 s
    | .cmpIzx b1 => Sys2Proof.Machine.execCmpIzx b1 s
    | .cmpIzy b1 => Sys2Proof.Machine.execCmpIzy b1 s
    | .cmpAbs addr => Sys2Proof.Machine.execCmpAbs addr s
    | .cmpAbx addr => Sys2Proof.Machine.execCmpAbx addr s
    | .cmpAby addr => Sys2Proof.Machine.execCmpAby addr s
    | .cpxImm b1 => Sys2Proof.Machine.execCpxImm b1 s
    | .cpxZp b1 => Sys2Proof.Machine.execCpxZp b1 s
    | .cpxAbs addr => Sys2Proof.Machine.execCpxAbs addr s
    | .cpyImm b1 => Sys2Proof.Machine.execCpyImm b1 s
    | .cpyZp b1 => Sys2Proof.Machine.execCpyZp b1 s
    | .cpyAbs addr => Sys2Proof.Machine.execCpyAbs addr s
    | .bitZp b1 => Sys2Proof.Machine.execBitZp b1 s
    | .bitAbs addr => Sys2Proof.Machine.execBitAbs addr s
  -- Branch.lean
    | .bcc b1 => Sys2Proof.Machine.execBcc b1 s
    | .bcs b1 => Sys2Proof.Machine.execBcs b1 s
    | .beq b1 => Sys2Proof.Machine.execBeq b1 s
    | .bmi b1 => Sys2Proof.Machine.execBmi b1 s
    | .bne b1 => Sys2Proof.Machine.execBne b1 s
    | .bpl b1 => Sys2Proof.Machine.execBpl b1 s
    | .bvc b1 => Sys2Proof.Machine.execBvc b1 s
    | .bvs b1 => Sys2Proof.Machine.execBvs b1 s
    | .jmpAbs addr => Sys2Proof.Machine.execJmpAbs addr s
    | .jmpInd addr => Sys2Proof.Machine.execJmpInd addr s
  -- Stack.lean
    | .pha => Sys2Proof.Machine.execPha s
    | .pla => Sys2Proof.Machine.execPla s
    | .php => Sys2Proof.Machine.execPhp s
    | .plp => Sys2Proof.Machine.execPlp s
    | .jsr addr => Sys2Proof.Machine.execJsr addr s
    | .rts => Sys2Proof.Machine.execRts s
    | .rti => Sys2Proof.Machine.execRti s
    | .brk => Sys2Proof.Machine.execBrk s
  -- Transfer.lean
    | .tax => Sys2Proof.Machine.execTax s
    | .tay => Sys2Proof.Machine.execTay s
    | .txa => Sys2Proof.Machine.execTxa s
    | .tya => Sys2Proof.Machine.execTya s
    | .tsx => Sys2Proof.Machine.execTsx s
    | .txs => Sys2Proof.Machine.execTxs s
  -- LoadStore.lean
    | .ldaImm b1 => Sys2Proof.Machine.execLdaImm b1 s
    | .ldaZp b1 => Sys2Proof.Machine.execLdaZp b1 s
    | .ldaZpx b1 => Sys2Proof.Machine.execLdaZpx b1 s
    | .ldaIzx b1 => Sys2Proof.Machine.execLdaIzx b1 s
    | .ldaIzy b1 => Sys2Proof.Machine.execLdaIzy b1 s
    | .ldaAbs addr => Sys2Proof.Machine.execLdaAbs addr s
    | .ldaAbx addr => Sys2Proof.Machine.execLdaAbx addr s
    | .ldaAby addr => Sys2Proof.Machine.execLdaAby addr s
    | .ldxImm b1 => Sys2Proof.Machine.execLdxImm b1 s
    | .ldxZp b1 => Sys2Proof.Machine.execLdxZp b1 s
    | .ldxZpy b1 => Sys2Proof.Machine.execLdxZpy b1 s
    | .ldxAbs addr => Sys2Proof.Machine.execLdxAbs addr s
    | .ldxAby addr => Sys2Proof.Machine.execLdxAby addr s
    | .ldyImm b1 => Sys2Proof.Machine.execLdyImm b1 s
    | .ldyZp b1 => Sys2Proof.Machine.execLdyZp b1 s
    | .ldyZpx b1 => Sys2Proof.Machine.execLdyZpx b1 s
    | .ldyAbs addr => Sys2Proof.Machine.execLdyAbs addr s
    | .ldyAbx addr => Sys2Proof.Machine.execLdyAbx addr s
    | .staZp b1 => Sys2Proof.Machine.execStaZp b1 s
    | .staZpx b1 => Sys2Proof.Machine.execStaZpx b1 s
    | .staIzx b1 => Sys2Proof.Machine.execStaIzx b1 s
    | .staIzy b1 => Sys2Proof.Machine.execStaIzy b1 s
    | .staAbs addr => Sys2Proof.Machine.execStaAbs addr s
    | .staAbx addr => Sys2Proof.Machine.execStaAbx addr s
    | .staAby addr => Sys2Proof.Machine.execStaAby addr s
    | .stxZp b1 => Sys2Proof.Machine.execStxZp b1 s
    | .stxZpy b1 => Sys2Proof.Machine.execStxZpy b1 s
    | .stxAbs addr => Sys2Proof.Machine.execStxAbs addr s
    | .styZp b1 => Sys2Proof.Machine.execStyZp b1 s
    | .styZpx b1 => Sys2Proof.Machine.execStyZpx b1 s
    | .styAbs addr => Sys2Proof.Machine.execStyAbs addr s
  -- IncDec.lean
    | .incZp b1 => Sys2Proof.Machine.execIncZp b1 s
    | .incZpx b1 => Sys2Proof.Machine.execIncZpx b1 s
    | .incAbs addr => Sys2Proof.Machine.execIncAbs addr s
    | .incAbx addr => Sys2Proof.Machine.execIncAbx addr s
    | .decZp b1 => Sys2Proof.Machine.execDecZp b1 s
    | .decZpx b1 => Sys2Proof.Machine.execDecZpx b1 s
    | .decAbs addr => Sys2Proof.Machine.execDecAbs addr s
    | .decAbx addr => Sys2Proof.Machine.execDecAbx addr s
    | .inx => Sys2Proof.Machine.execInx s
    | .iny => Sys2Proof.Machine.execIny s
    | .dex => Sys2Proof.Machine.execDex s
    | .dey => Sys2Proof.Machine.execDey s
    | .clc => Sys2Proof.Machine.execClc s
    | .sec => Sys2Proof.Machine.execSec s
    | .cli => Sys2Proof.Machine.execCli s
    | .sei => Sys2Proof.Machine.execSei s
    | .cld => Sys2Proof.Machine.execCld s
    | .sed => Sys2Proof.Machine.execSed s
    | .clv => Sys2Proof.Machine.execClv s
    | .nop => Sys2Proof.Machine.execNop s

end Sys2Proof.Machine
end

