-- ==== Sys2Proof/Machine/Fetch.lean ====
section
/-! DEFINITION. Fetching and decoding an instruction at PC (spec/30_encoding.md R126 to R128, R138 stage 1), and laying an
instruction out where the next fetch reads it. -/

namespace Sys2Proof.Machine

/-- The reads after the opcode byte, in order (R127, R128): the operand bytes, or for the modes without any the one
discarded read of PC + 1. Bytes the mode does not carry are given as 0. -/
def fetchOperands (md : Mode) (s : State) : Byte × Byte × State :=
  let r1 := memRead (s.PC + 1) s
  match md.operandBytes with
  | 0 => (0, 0, r1.2)
  | 1 => (r1.1, 0, r1.2)
  | _ =>
    let r2 := memRead (s.PC + 2) r1.2
    (r1.1, r2.1, r2.2)

/-- Read and decode the instruction at PC (R126); an empty slot raises `InvalidOpcode` before any operand byte is read.
The state that comes with the instruction has had the reads. -/
def fetch (s : State) : Host.Outcome (Instr × State) Fault Refusal :=
  let r := memRead s.PC s
  match metadata r.1 with
  | none => .fault (.invalidOpcode s.PC r.1)
  | some sl =>
    let b := fetchOperands sl.mode r.2
    match assemble r.1 b.1 b.2.1 with
    | none => .fault (.invalidOpcode s.PC r.1)
    | some i => .next (i, b.2.2)

/-- The state a step that raised `InvalidOpcode` leaves (R321, R322): the opcode read is the one access made, so nothing
but the device can differ, and that only when PC lies in the window. -/
def afterInvalidOpcode (s : State) : State := (memRead s.PC s).2

/-- A word of the table can be laid out in storage at PC: none of three bytes lies in the window. -/
def fetchesStorage (pc : Word) : Bool := !inWindow pc && !inWindow (pc + 1) && !inWindow (pc + 2)

/-- Store three bytes where the next fetch reads them: at PC; or, where a byte at PC would be the device's and not
storage, at $0200, with PC there. -/
def placeFetched (b0 b1 b2 : Byte) (s : State) : State :=
  let pc := if fetchesStorage s.PC then s.PC else 0x0200#16
  let m := Memory.set (Memory.set (Memory.set s.mem (phys pc) b0) (phys (pc + 1)) b1) (phys (pc + 2)) b2
  { s with PC := pc, mem := m }

end Sys2Proof.Machine
end

