-- ==== Sys2Proof/Machine/Interrupts.lean ====
section
/-! DEFINITION. The interrupt controller (spec/60_exceptions.md R330 to R342; spec/10_state.md R48, R55): which request is
taken at an instruction boundary, and its service. -/

namespace Sys2Proof.Machine

/-- The three interrupt kinds (R330). -/
inductive InterruptKind where
  | reset
  | nmi
  | irq
  deriving DecidableEq, Repr

/-- The request taken at a boundary (R333, R334): Reset before NMI before IRQ; only IRQ is held back, by I = 1. -/
def selectInterrupt (s : State) : Option InterruptKind :=
  if s.pendReset then some .reset
  else if s.pendNMI then some .nmi
  else if s.pendIRQ && !(s.I && Config.irqMasking) then some .irq
  else none

/-- Service of a Reset (R335, R55, R381): nothing is pushed; I is set, PC comes from $FFFC. -/
def serviceReset (s : State) : State := loadVector resetVector { s with pendReset := false, I := true }

/-- Service of one request (R335): its latch, and only its latch, is cleared. NMI and IRQ push the next instruction's
address and the flags with B = 0. -/
def service (k : InterruptKind) (s : State) : State :=
  match k with
  | .reset => serviceReset s
  | .nmi => enterHandler nmiVector s.PC false { s with pendNMI := false }
  | .irq => enterHandler irqVector s.PC false { s with pendIRQ := false }

/-- The last stage of a step (R138 stage 6): at most one request is serviced. -/
def serviceInterrupt (s : State) : State :=
  match selectInterrupt s with
  | none => s
  | some k => service k s

end Sys2Proof.Machine
end

