-- ==== Sys2Proof/Machine/Step.lean ====
section
/-! DEFINITION. One step (spec/30_encoding.md R138): fetch and decode, the instruction, then at most one interrupt
service. -/

namespace Sys2Proof.Machine

/-- `Step` (R138). When the fetch raises `InvalidOpcode` nothing else happens: the instruction is not run and no
interrupt is serviced. Its cycle count is `stepCycles` (Cycles.lean, R400). -/
def step (s : State) : Host.Outcome State Fault Refusal :=
  match fetch s with
  | .fault r => .fault r
  | .refused r => .refused r
  | .next (i, t) =>
    match exec i t with
    | .fault r => .fault r
    | .refused r => .refused r
    | .next u => .next (serviceInterrupt u)

/-- The state with the instruction of a table word stored where `step` fetches its next instruction: at PC, or, where PC
or one of the two addresses after it is a window of the device, at $0200 with PC moved there
(notes/assumptions/10.md). -/
def State.withFetchWord (s : State) (nbits w : Nat) : State :=
  match tableWordBytes nbits w with
  | [b0, b1, b2] => placeFetched b0 b1 b2 s
  | _ => s

end Sys2Proof.Machine
end

