-- ==== Sys2Proof/Machine/Cycles.lean ====
section
/-! DEFINITION. The cycle count a step returns (spec/30_encoding.md R138, R139; spec/70_reset_and_hazards.md R400, R401),
as a separate function of the same inputs, which R400 allows: no state depends on it. -/

namespace Sys2Proof.Machine

/-- The memory operand of a mode and its operand bytes, for the modes that have one (R122). -/
def memOperand? (md : Mode) (b1 b2 : Byte) : Option MemOperand :=
  match md with
  | .zp => some (.zp b1)
  | .zpx => some (.zpx b1)
  | .zpy => some (.zpy b1)
  | .abs => some (.abs (mkWord b2 b1))
  | .abx => some (.abx (mkWord b2 b1))
  | .aby => some (.aby (mkWord b2 b1))
  | .izx => some (.izx b1)
  | .izy => some (.izy b1)
  | .imp | .acc | .imm | .rel | .ind => none

/-- The condition of a conditional branch (R231 to R238); `none` for every other operation. -/
def branchCondition? (mn : Mnemonic) (s : State) : Option Bool :=
  match mn with
  | .bcc => some !s.C
  | .bcs => some s.C
  | .beq => some s.Z
  | .bmi => some s.N
  | .bne => some !s.Z
  | .bpl => some !s.N
  | .bvc => some !s.V
  | .bvs => some s.V
  | _ => none

/-- `bcross` (R230, D25): PC and PC + off lie in different pages; with the switch of Config.lean, PC + 2 and
PC + 2 + off. -/
def branchCrosses (b1 : Byte) (s : State) : Bool :=
  let pc := if Config.branchCrossHardware then s.PC + 2 else s.PC
  hiByte (pc + b1.signExtend 16) != hiByte pc

/-- The operations that store to their memory operand (R176, R283 to R285). -/
def storesOperand (mn : Mnemonic) : Bool :=
  match mn with
  | .sta | .stx | .sty | .asl | .lsr | .rol | .ror | .inc | .dec => true
  | _ => false

/-- The cost of the instruction part of a step (R139): base cycles; 1 for a flagged crossing; 1 for a taken branch and 1
more when it crosses; `DMA_CYCLES` when the instruction stores to $4014. -/
def instrCycles (sl : Slot) (b1 b2 : Byte) (s : State) : Nat :=
  let operand := memOperand? sl.mode b1 b2
  let crossing := if sl.extraCycle && operand.any (crosses · s) then 1 else 0
  let taken := if branchCondition? sl.mnemonic s = some true then (if branchCrosses b1 s then 2 else 1) else 0
  let dma :=
    if storesOperand sl.mnemonic && operand.any (fun m => (effectiveAddr m s).1 == 0x4014#16) then Config.dmaCycles else 0
  sl.baseCycles + crossing + taken + dma

/-- The cost of an instruction in the state it executes in. -/
def Instr.cycles (i : Instr) (s : State) : Nat :=
  match i.slot? with
  | none => 0
  | some sl => instrCycles sl ((encode i).getD 1 0) ((encode i).getD 2 0) s

/-- The cycle count `Step` returns (R138, R139): the instruction's cost, and the service cost when the step services an
interrupt. No count is returned by a step that faults (R321). -/
def stepCycles (s : State) : Option Nat :=
  match fetch s with
  | .fault _ | .refused _ => none
  | .next (i, t) =>
    match exec i t with
    | .fault _ | .refused _ => none
    | .next u => some (Instr.cycles i t + (if (selectInterrupt u).isSome then Config.serviceCycles else 0))

end Sys2Proof.Machine
end

