-- ==== Sys2Proof/Machine/HostInterface.lean ====
section
/-! DEFINITION. What the host can do between two steps (spec/00_scope.md R8, R9; spec/10_state.md R53, R54;
spec/20_memory.md R89; spec/60_exceptions.md R323, R331; spec/70_reset_and_hazards.md R380, R386): trigger an interrupt,
use the bus, read the registers, create the core. -/

namespace Sys2Proof.Machine

/-- `Trigger(kind)` (R331): set the latch of the kind, and nothing else. -/
def trigger (k : InterruptKind) (s : State) : State :=
  match k with
  | .reset => { s with pendReset := true }
  | .nmi => { s with pendNMI := true }
  | .irq => { s with pendIRQ := true }

/-- An address a host passes is one of the bus, or the call raises `AddressOutOfRange` and changes nothing (R89,
R323). -/
def hostAddress (a : Int) : Option Word := if 0 ≤ a ∧ a ≤ 65535 then some (BitVec.ofInt 16 a) else none

/-- `loadByte(a)` (R89): the byte, and the state after the access. -/
def hostLoadByte (a : Int) (s : State) : Host.Outcome (Byte × State) Fault Refusal :=
  match hostAddress a with
  | none => .fault (.addressOutOfRange a)
  | some w => .next (memRead w s)

/-- `loadWord(a)` (R89): `MemReadWord` as the pair (low byte, high byte), and the state after the accesses. -/
def hostLoadWord (a : Int) (s : State) : Host.Outcome ((Byte × Byte) × State) Fault Refusal :=
  match hostAddress a with
  | none => .fault (.addressOutOfRange a)
  | some w =>
    let r := memReadWord w s
    .next ((loByte r.1, hiByte r.1), r.2)

/-- `storeByte(a, v)` (R89): with the mirroring, the dispatch and the DMA of every write. -/
def hostStoreByte (a : Int) (v : Byte) (s : State) : Host.Outcome State Fault Refusal :=
  match hostAddress a with
  | none => .fault (.addressOutOfRange a)
  | some w => .next (memWrite w v s)

/-- What the host can read of the registers (R53). The latches are not among them. -/
structure Registers where
  A : Byte
  X : Byte
  Y : Byte
  PC : Word
  SP : Byte
  C : Bool
  Z : Bool
  I : Bool
  D : Bool
  B : Bool
  V : Bool
  N : Bool
  deriving DecidableEq, Repr

/-- Introspection (R53): a read of the current values, with no side effect. -/
def registers (s : State) : Registers :=
  { A := s.A, X := s.X, Y := s.Y, PC := s.PC, SP := s.SP, C := s.C, Z := s.Z, I := s.I, D := s.D, B := s.B, V := s.V,
    N := s.N }

/-- A 16 KB program bank (R386). -/
abbrev Bank := Vector Byte 16384

/-- The loader (R386): bank 0 at $8000; bank 1, or bank 0 repeated, at $C000. -/
def loadBanks (bank0 : Bank) (bank1 : Option Bank) (m : Memory) : Memory :=
  Memory.setAll (Memory.setAll m 0x8000 bank0.toList) 0xC000 (bank1.getD bank0).toList

/-- The state of power-on but for PC: R380 steps 1, 3 and 4 over the given storage and device. -/
def State.initial (memInit : Memory) (device : Periph) : State :=
  { State.reset with mem := memInit, ps := device }

/-- Power-on (R380) over storage in which the loader's banks already stand: steps 3 to 5. -/
def powerOn (memInit : Memory) (device : Periph) : State := loadVector resetVector (State.initial memInit device)

/-- Power-on with a cartridge (R380, R386): the loader runs before PC is read from the Reset vector. -/
def powerOnWith (memInit : Memory) (bank0 : Bank) (bank1 : Option Bank) (device : Periph) : State :=
  powerOn (loadBanks bank0 bank1 memInit) device

end Sys2Proof.Machine
end

