-- ==== Sys2Proof/Safety.lean ====
section
/-! DEFINITION. What counts as a safe step and a safe run, and the invariant of the machine, in the terms the statements
use. -/

namespace Sys2Proof.Machine

/-- The invariant every step keeps: storage is in its canonical form, so equal storage is equal data and every cell
listed is one of the 2 KB of RAM or of $2000 to $FFFF less the window (R49, R72). -/
abbrev StorageCanonical (s : State) : Prop := Memory.wf s.mem = true

/-- A step that executes an instruction. -/
def StepsSafely (s : State) : Prop := ∃ t, step s = .next t

/-- The byte at PC has no metadata entry: the one way a step stops (R321, R323). -/
def AtInvalidOpcode (s : State) : Prop := metadata (memRead s.PC s).1 = none

/-- A run of `n` steps without a fault. -/
def RunsSafely (n : Nat) (s : State) : Prop := ∃ t, Sys2Proof.core.run n s = .next t

end Sys2Proof.Machine
end

