-- ==== Sys2Proof/Certificates/Slice0/Obligations.lean ====
section
/-! DEFINITION. The statements about the machine. Each docstring names the rules of spec/ the statement formalises. The
results are written as numbers, as the rules give them, and not with the operations of Flags.lean. The opcode bytes and
the base cycles of every statement are the spec's decision D3, from general knowledge (notes/assumptions/1.md). -/

namespace Sys2Proof.Spec

open Sys2Proof.Machine

/-! ## The encodings, written out from the rules of files 41 to 48 -/

/-- A form of an instruction: the instruction, its opcode byte, its operand, the memory operand that operand is (if it is
one), its length, its base cycles and whether a page crossing costs one more cycle (the mark (+) of the rules). -/
structure Form (α : Type) where
  instr : Instr
  opcode : Byte
  operand : α
  mem : Option MemOperand
  length : Nat
  base : Nat
  extra : Bool

/-- The instruction has the encoding of the form, and in the state `s` it costs the base cycles, and one more if the form
is marked (+) and adding the index crosses a page (R139). -/
def Form.encoded {α : Type} (f : Form α) (s : State) : Prop :=
  f.instr.opcode = f.opcode ∧ f.instr.length = f.length ∧
  Instr.cycles f.instr s = f.base + (if f.extra = true ∧ f.mem.any (crosses · s) = true then 1 else 0)

/-- The forms of ADC (R190). -/
def adcForms (b : Byte) (w : Word) : List (Form Source) :=
  [ ⟨.adcImm b, 0x69, .imm b, none, 2, 2, false⟩,
    ⟨.adcZp b, 0x65, .mem (.zp b), some (.zp b), 2, 3, false⟩,
    ⟨.adcZpx b, 0x75, .mem (.zpx b), some (.zpx b), 2, 4, false⟩,
    ⟨.adcIzx b, 0x61, .mem (.izx b), some (.izx b), 2, 6, false⟩,
    ⟨.adcIzy b, 0x71, .mem (.izy b), some (.izy b), 2, 5, true⟩,
    ⟨.adcAbs w, 0x6D, .mem (.abs w), some (.abs w), 3, 4, false⟩,
    ⟨.adcAbx w, 0x7D, .mem (.abx w), some (.abx w), 3, 4, true⟩,
    ⟨.adcAby w, 0x79, .mem (.aby w), some (.aby w), 3, 4, true⟩ ]

/-- The forms of SBC (R191). -/
def sbcForms (b : Byte) (w : Word) : List (Form Source) :=
  [ ⟨.sbcImm b, 0xE9, .imm b, none, 2, 2, false⟩,
    ⟨.sbcZp b, 0xE5, .mem (.zp b), some (.zp b), 2, 3, false⟩,
    ⟨.sbcZpx b, 0xF5, .mem (.zpx b), some (.zpx b), 2, 4, false⟩,
    ⟨.sbcIzx b, 0xE1, .mem (.izx b), some (.izx b), 2, 6, false⟩,
    ⟨.sbcIzy b, 0xF1, .mem (.izy b), some (.izy b), 2, 5, true⟩,
    ⟨.sbcAbs w, 0xED, .mem (.abs w), some (.abs w), 3, 4, false⟩,
    ⟨.sbcAbx w, 0xFD, .mem (.abx w), some (.abx w), 3, 4, true⟩,
    ⟨.sbcAby w, 0xF9, .mem (.aby w), some (.aby w), 3, 4, true⟩ ]

/-- The forms of AND (R200). -/
def andForms (b : Byte) (w : Word) : List (Form Source) :=
  [ ⟨.andImm b, 0x29, .imm b, none, 2, 2, false⟩,
    ⟨.andZp b, 0x25, .mem (.zp b), some (.zp b), 2, 3, false⟩,
    ⟨.andZpx b, 0x35, .mem (.zpx b), some (.zpx b), 2, 4, false⟩,
    ⟨.andIzx b, 0x21, .mem (.izx b), some (.izx b), 2, 6, false⟩,
    ⟨.andIzy b, 0x31, .mem (.izy b), some (.izy b), 2, 5, true⟩,
    ⟨.andAbs w, 0x2D, .mem (.abs w), some (.abs w), 3, 4, false⟩,
    ⟨.andAbx w, 0x3D, .mem (.abx w), some (.abx w), 3, 4, true⟩,
    ⟨.andAby w, 0x39, .mem (.aby w), some (.aby w), 3, 4, true⟩ ]

/-- The forms of ORA (R201). -/
def oraForms (b : Byte) (w : Word) : List (Form Source) :=
  [ ⟨.oraImm b, 0x09, .imm b, none, 2, 2, false⟩,
    ⟨.oraZp b, 0x05, .mem (.zp b), some (.zp b), 2, 3, false⟩,
    ⟨.oraZpx b, 0x15, .mem (.zpx b), some (.zpx b), 2, 4, false⟩,
    ⟨.oraIzx b, 0x01, .mem (.izx b), some (.izx b), 2, 6, false⟩,
    ⟨.oraIzy b, 0x11, .mem (.izy b), some (.izy b), 2, 5, true⟩,
    ⟨.oraAbs w, 0x0D, .mem (.abs w), some (.abs w), 3, 4, false⟩,
    ⟨.oraAbx w, 0x1D, .mem (.abx w), some (.abx w), 3, 4, true⟩,
    ⟨.oraAby w, 0x19, .mem (.aby w), some (.aby w), 3, 4, true⟩ ]

/-- The forms of EOR (R202). -/
def eorForms (b : Byte) (w : Word) : List (Form Source) :=
  [ ⟨.eorImm b, 0x49, .imm b, none, 2, 2, false⟩,
    ⟨.eorZp b, 0x45, .mem (.zp b), some (.zp b), 2, 3, false⟩,
    ⟨.eorZpx b, 0x55, .mem (.zpx b), some (.zpx b), 2, 4, false⟩,
    ⟨.eorIzx b, 0x41, .mem (.izx b), some (.izx b), 2, 6, false⟩,
    ⟨.eorIzy b, 0x51, .mem (.izy b), some (.izy b), 2, 5, true⟩,
    ⟨.eorAbs w, 0x4D, .mem (.abs w), some (.abs w), 3, 4, false⟩,
    ⟨.eorAbx w, 0x5D, .mem (.abx w), some (.abx w), 3, 4, true⟩,
    ⟨.eorAby w, 0x59, .mem (.aby w), some (.aby w), 3, 4, true⟩ ]

/-- The forms of ASL (R203). -/
def aslForms (b : Byte) (w : Word) : List (Form Place) :=
  [ ⟨.aslAcc, 0x0A, .acc, none, 1, 2, false⟩,
    ⟨.aslZp b, 0x06, .mem (.zp b), some (.zp b), 2, 5, false⟩,
    ⟨.aslZpx b, 0x16, .mem (.zpx b), some (.zpx b), 2, 6, false⟩,
    ⟨.aslAbs w, 0x0E, .mem (.abs w), some (.abs w), 3, 6, false⟩,
    ⟨.aslAbx w, 0x1E, .mem (.abx w), some (.abx w), 3, 7, false⟩ ]

/-- The forms of LSR (R204). -/
def lsrForms (b : Byte) (w : Word) : List (Form Place) :=
  [ ⟨.lsrAcc, 0x4A, .acc, none, 1, 2, false⟩,
    ⟨.lsrZp b, 0x46, .mem (.zp b), some (.zp b), 2, 5, false⟩,
    ⟨.lsrZpx b, 0x56, .mem (.zpx b), some (.zpx b), 2, 6, false⟩,
    ⟨.lsrAbs w, 0x4E, .mem (.abs w), some (.abs w), 3, 6, false⟩,
    ⟨.lsrAbx w, 0x5E, .mem (.abx w), some (.abx w), 3, 7, false⟩ ]

/-- The forms of ROL (R205). -/
def rolForms (b : Byte) (w : Word) : List (Form Place) :=
  [ ⟨.rolAcc, 0x2A, .acc, none, 1, 2, false⟩,
    ⟨.rolZp b, 0x26, .mem (.zp b), some (.zp b), 2, 5, false⟩,
    ⟨.rolZpx b, 0x36, .mem (.zpx b), some (.zpx b), 2, 6, false⟩,
    ⟨.rolAbs w, 0x2E, .mem (.abs w), some (.abs w), 3, 6, false⟩,
    ⟨.rolAbx w, 0x3E, .mem (.abx w), some (.abx w), 3, 7, false⟩ ]

/-- The forms of ROR (R206). -/
def rorForms (b : Byte) (w : Word) : List (Form Place) :=
  [ ⟨.rorAcc, 0x6A, .acc, none, 1, 2, false⟩,
    ⟨.rorZp b, 0x66, .mem (.zp b), some (.zp b), 2, 5, false⟩,
    ⟨.rorZpx b, 0x76, .mem (.zpx b), some (.zpx b), 2, 6, false⟩,
    ⟨.rorAbs w, 0x6E, .mem (.abs w), some (.abs w), 3, 6, false⟩,
    ⟨.rorAbx w, 0x7E, .mem (.abx w), some (.abx w), 3, 7, false⟩ ]

/-- The forms of CMP (R220). -/
def cmpForms (b : Byte) (w : Word) : List (Form Source) :=
  [ ⟨.cmpImm b, 0xC9, .imm b, none, 2, 2, false⟩,
    ⟨.cmpZp b, 0xC5, .mem (.zp b), some (.zp b), 2, 3, false⟩,
    ⟨.cmpZpx b, 0xD5, .mem (.zpx b), some (.zpx b), 2, 4, false⟩,
    ⟨.cmpIzx b, 0xC1, .mem (.izx b), some (.izx b), 2, 6, false⟩,
    ⟨.cmpIzy b, 0xD1, .mem (.izy b), some (.izy b), 2, 5, true⟩,
    ⟨.cmpAbs w, 0xCD, .mem (.abs w), some (.abs w), 3, 4, false⟩,
    ⟨.cmpAbx w, 0xDD, .mem (.abx w), some (.abx w), 3, 4, true⟩,
    ⟨.cmpAby w, 0xD9, .mem (.aby w), some (.aby w), 3, 4, true⟩ ]

/-- The forms of CPX (R221). -/
def cpxForms (b : Byte) (w : Word) : List (Form Source) :=
  [ ⟨.cpxImm b, 0xE0, .imm b, none, 2, 2, false⟩,
    ⟨.cpxZp b, 0xE4, .mem (.zp b), some (.zp b), 2, 3, false⟩,
    ⟨.cpxAbs w, 0xEC, .mem (.abs w), some (.abs w), 3, 4, false⟩ ]

/-- The forms of CPY (R222). -/
def cpyForms (b : Byte) (w : Word) : List (Form Source) :=
  [ ⟨.cpyImm b, 0xC0, .imm b, none, 2, 2, false⟩,
    ⟨.cpyZp b, 0xC4, .mem (.zp b), some (.zp b), 2, 3, false⟩,
    ⟨.cpyAbs w, 0xCC, .mem (.abs w), some (.abs w), 3, 4, false⟩ ]

/-- The forms of BIT (R223). -/
def bitForms (b : Byte) (w : Word) : List (Form Source) :=
  [ ⟨.bitZp b, 0x24, .mem (.zp b), some (.zp b), 2, 3, false⟩,
    ⟨.bitAbs w, 0x2C, .mem (.abs w), some (.abs w), 3, 4, false⟩ ]

/-- The forms of LDA (R280). -/
def ldaForms (b : Byte) (w : Word) : List (Form Source) :=
  [ ⟨.ldaImm b, 0xA9, .imm b, none, 2, 2, false⟩,
    ⟨.ldaZp b, 0xA5, .mem (.zp b), some (.zp b), 2, 3, false⟩,
    ⟨.ldaZpx b, 0xB5, .mem (.zpx b), some (.zpx b), 2, 4, false⟩,
    ⟨.ldaIzx b, 0xA1, .mem (.izx b), some (.izx b), 2, 6, false⟩,
    ⟨.ldaIzy b, 0xB1, .mem (.izy b), some (.izy b), 2, 5, true⟩,
    ⟨.ldaAbs w, 0xAD, .mem (.abs w), some (.abs w), 3, 4, false⟩,
    ⟨.ldaAbx w, 0xBD, .mem (.abx w), some (.abx w), 3, 4, true⟩,
    ⟨.ldaAby w, 0xB9, .mem (.aby w), some (.aby w), 3, 4, true⟩ ]

/-- The forms of LDX (R281). -/
def ldxForms (b : Byte) (w : Word) : List (Form Source) :=
  [ ⟨.ldxImm b, 0xA2, .imm b, none, 2, 2, false⟩,
    ⟨.ldxZp b, 0xA6, .mem (.zp b), some (.zp b), 2, 3, false⟩,
    ⟨.ldxZpy b, 0xB6, .mem (.zpy b), some (.zpy b), 2, 4, false⟩,
    ⟨.ldxAbs w, 0xAE, .mem (.abs w), some (.abs w), 3, 4, false⟩,
    ⟨.ldxAby w, 0xBE, .mem (.aby w), some (.aby w), 3, 4, true⟩ ]

/-- The forms of LDY (R282). -/
def ldyForms (b : Byte) (w : Word) : List (Form Source) :=
  [ ⟨.ldyImm b, 0xA0, .imm b, none, 2, 2, false⟩,
    ⟨.ldyZp b, 0xA4, .mem (.zp b), some (.zp b), 2, 3, false⟩,
    ⟨.ldyZpx b, 0xB4, .mem (.zpx b), some (.zpx b), 2, 4, false⟩,
    ⟨.ldyAbs w, 0xAC, .mem (.abs w), some (.abs w), 3, 4, false⟩,
    ⟨.ldyAbx w, 0xBC, .mem (.abx w), some (.abx w), 3, 4, true⟩ ]

/-- The forms of STA (R283). -/
def staForms (b : Byte) (w : Word) : List (Form MemOperand) :=
  [ ⟨.staZp b, 0x85, .zp b, some (.zp b), 2, 3, false⟩,
    ⟨.staZpx b, 0x95, .zpx b, some (.zpx b), 2, 4, false⟩,
    ⟨.staIzx b, 0x81, .izx b, some (.izx b), 2, 6, false⟩,
    ⟨.staIzy b, 0x91, .izy b, some (.izy b), 2, 6, false⟩,
    ⟨.staAbs w, 0x8D, .abs w, some (.abs w), 3, 4, false⟩,
    ⟨.staAbx w, 0x9D, .abx w, some (.abx w), 3, 5, false⟩,
    ⟨.staAby w, 0x99, .aby w, some (.aby w), 3, 5, false⟩ ]

/-- The forms of STX (R284). -/
def stxForms (b : Byte) (w : Word) : List (Form MemOperand) :=
  [ ⟨.stxZp b, 0x86, .zp b, some (.zp b), 2, 3, false⟩,
    ⟨.stxZpy b, 0x96, .zpy b, some (.zpy b), 2, 4, false⟩,
    ⟨.stxAbs w, 0x8E, .abs w, some (.abs w), 3, 4, false⟩ ]

/-- The forms of STY (R285). -/
def styForms (b : Byte) (w : Word) : List (Form MemOperand) :=
  [ ⟨.styZp b, 0x84, .zp b, some (.zp b), 2, 3, false⟩,
    ⟨.styZpx b, 0x94, .zpx b, some (.zpx b), 2, 4, false⟩,
    ⟨.styAbs w, 0x8C, .abs w, some (.abs w), 3, 4, false⟩ ]

/-- The forms of INC (R290). -/
def incForms (b : Byte) (w : Word) : List (Form Place) :=
  [ ⟨.incZp b, 0xE6, .mem (.zp b), some (.zp b), 2, 5, false⟩,
    ⟨.incZpx b, 0xF6, .mem (.zpx b), some (.zpx b), 2, 6, false⟩,
    ⟨.incAbs w, 0xEE, .mem (.abs w), some (.abs w), 3, 6, false⟩,
    ⟨.incAbx w, 0xFE, .mem (.abx w), some (.abx w), 3, 7, false⟩ ]

/-- The forms of DEC (R291). -/
def decForms (b : Byte) (w : Word) : List (Form Place) :=
  [ ⟨.decZp b, 0xC6, .mem (.zp b), some (.zp b), 2, 5, false⟩,
    ⟨.decZpx b, 0xD6, .mem (.zpx b), some (.zpx b), 2, 6, false⟩,
    ⟨.decAbs w, 0xCE, .mem (.abs w), some (.abs w), 3, 6, false⟩,
    ⟨.decAbx w, 0xDE, .mem (.abx w), some (.abx w), 3, 7, false⟩ ]

/-! ## The state after an instruction -/

/-- PC after the length increment (R37). -/
def pcAfter (n : Nat) (s : State) : Word := BitVec.ofNat 16 (s.PC.toNat + n)

/-- The byte a read operand gives (R174). -/
def byteOf (src : Source) (s : State) : Byte := (loadOperand src s).1

/-- The state after a read operand has been read: only the device can differ. -/
def stateOf (src : Source) (s : State) : State := (loadOperand src s).2

/-- The byte a read-modify-write operand holds (R174): A, or one read at the effective address. -/
def placeByte (p : Place) (s : State) : Byte :=
  match p with
  | .acc => s.A
  | .mem m => (memRead (effectiveAddr m s).1 s).1

/-- The state after a read-modify-write operand has been read once and written once (R176, R82). -/
def placeWritten (p : Place) (v : Byte) (s : State) : State :=
  match p with
  | .acc => { s with A := v }
  | .mem m => memWrite (effectiveAddr m s).1 v (memRead (effectiveAddr m s).1 s).2

/-- The stack cell of a stack pointer (R34): $0100 + SP. -/
def stackCell (sp : Byte) : Word := BitVec.ofNat 16 (0x100 + sp.toNat)

/-- A flag as a number. -/
def bitOf (f : Bool) (weight : Nat) : Nat := if f then weight else 0

/-- The status byte (R46) with the given bit 4. -/
def statusByte (b : Bool) (s : State) : Byte :=
  BitVec.ofNat 8 (bitOf s.N 128 + bitOf s.V 64 + 32 + bitOf b 16 + bitOf s.D 8 + bitOf s.I 4 + bitOf s.Z 2 + bitOf s.C 1)

/-- Bit `k` of a byte, by division. -/
def bitAt (p : Byte) (k : Nat) : Bool := decide (p.toNat / 2 ^ k % 2 = 1)

/-- The word of two bytes (R84). -/
def wordOf (hi lo : Byte) : Word := BitVec.ofNat 16 (hi.toNat * 256 + lo.toNat)

/-- The high byte of a word, by division. -/
def highOf (w : Word) : Byte := BitVec.ofNat 8 (w.toNat / 256)

/-- The low byte of a word. -/
def lowOf (w : Word) : Byte := BitVec.ofNat 8 w.toNat

/-- The state with a word pushed, the high byte first (R90, R92). -/
def wordPushed (w : Word) (s : State) : State :=
  { memWrite (stackCell (s.SP - 1)) (lowOf w) (memWrite (stackCell s.SP) (highOf w) s) with SP := s.SP - 2 }

/-- The state after an entry sequence (R257, R335): the return address and then the status byte with bit 4 = `b` are
pushed, B takes `b`, I is set, PC is the word at the vector. -/
def entered (vector ret : Word) (b : Bool) (s : State) : State :=
  { memWrite (stackCell (s.SP - 2)) (statusByte b s) (wordPushed ret s) with
    SP := s.SP - 3
    B := b
    I := true
    PC := wordOf (peek s (vector + 1)) (peek s vector) }

/-- The signed value of an operand byte (R12, R168). -/
def sext8 (b : Byte) : Int := if b.toNat < 0x80 then b.toNat else (b.toNat : Int) - 256

/-- A branch: the instruction, its opcode byte and its condition (R231 to R238). -/
structure BranchForm where
  instr : Instr
  opcode : Byte
  cond : Bool

/-- The eight conditional branches (R231 to R238). -/
def branchForms (b : Byte) (s : State) : List BranchForm :=
  [ ⟨.bcc b, 0x90, !s.C⟩, ⟨.bcs b, 0xB0, s.C⟩, ⟨.beq b, 0xF0, s.Z⟩, ⟨.bmi b, 0x30, s.N⟩, ⟨.bne b, 0xD0, !s.Z⟩,
    ⟨.bpl b, 0x10, !s.N⟩, ⟨.bvc b, 0x50, !s.V⟩, ⟨.bvs b, 0x70, s.V⟩ ]

/-! ## What an instruction may write (R51) and where it stores -/

/-- The mnemonics that write X (R51). -/
def writesX : List Mnemonic := [.ldx, .tax, .tsx, .inx, .dex]

/-- The mnemonics that write Y (R51). -/
def writesY : List Mnemonic := [.ldy, .tay, .iny, .dey]

/-- The mnemonics that write A in every form (R51). -/
def writesA : List Mnemonic := [.adc, .sbc, .and, .ora, .eor, .lda, .pla, .txa, .tya]

/-- The mnemonics that write SP (R51, R34). -/
def writesSP : List Mnemonic := [.pha, .pla, .php, .plp, .jsr, .rts, .rti, .brk, .txs]

/-- The mnemonics that write C (R39, R51). -/
def writesC : List Mnemonic := [.adc, .sbc, .asl, .lsr, .rol, .ror, .cmp, .cpx, .cpy, .clc, .sec, .plp, .rti]

/-- The mnemonics that write Z and N (R40, R45, R51). -/
def writesZN : List Mnemonic :=
  [.adc, .sbc, .and, .ora, .eor, .asl, .lsr, .rol, .ror, .cmp, .cpx, .cpy, .bit, .inc, .dec, .inx, .iny, .dex, .dey,
    .lda, .ldx, .ldy, .pla, .tax, .tay, .txa, .tya, .tsx, .plp, .rti]

/-- The mnemonics that write V (R44, R51). -/
def writesV : List Mnemonic := [.adc, .sbc, .bit, .clv, .plp, .rti]

/-- The mnemonics that write I (R41, R51). -/
def writesI : List Mnemonic := [.cli, .sei, .plp, .rti, .brk]

/-- The mnemonics that write D (R42, R51). -/
def writesD : List Mnemonic := [.cld, .sed, .plp, .rti]

/-- The mnemonics that write B (R43, R51). -/
def writesB : List Mnemonic := [.brk, .php, .plp, .rti]

/-- The memory operand of an instruction, from its metadata slot and its operand bytes. -/
def operandOf (i : Instr) : Option MemOperand :=
  i.slot?.bind (fun sl => memOperand? sl.mode ((encode i).getD 1 0) ((encode i).getD 2 0))

/-- The addresses of storage an instruction stores to: the effective address of a storing form, unless it is the
device's; the stack cells of the pushes. -/
def storedTo (i : Instr) (s : State) : List Word :=
  match i.slot?.map Slot.mnemonic with
  | some .pha | some .php => [stackCell s.SP]
  | some .jsr => [stackCell s.SP, stackCell (s.SP - 1)]
  | some .brk => [stackCell s.SP, stackCell (s.SP - 1), stackCell (s.SP - 2)]
  | some mn =>
    if storesOperand mn then
      (operandOf i).toList.filterMap (fun m =>
        if inWindow (effectiveAddr m s).1 then none else some (effectiveAddr m s).1)
    else []
  | none => []

/-- The address of the second pointer byte of JMP indirect (R171): in the page of the first. -/
def samePageNext (ptr : Word) : Word := BitVec.ofNat 16 (ptr.toNat / 256 * 256 + (ptr.toNat + 1) % 256)

/-- The addresses outside the zero page, the stack and the vectors that an instruction's own accesses go to, after its
fetch: the effective address of its operand, or the two pointer bytes of JMP indirect; a jump to an address does not access
it. -/
def accessed (i : Instr) (s : State) : List Word :=
  match i with
  | .jmpInd ptr => [ptr, samePageNext ptr]
  | .jmpAbs _ | .jsr _ => []
  | _ => (operandOf i).toList.map (fun m => (effectiveAddr m s).1)

/-- The core without the device: two states agree on every register, flag, latch and byte of storage. -/
def SameCore (s t : State) : Prop := t = { s with ps := t.ps }

end Sys2Proof.Spec

open Sys2Proof Sys2Proof.Machine Sys2Proof.Spec

/-! ## Encoding and decoding -/

/-- Decoding the bytes of any instruction, with anything behind them, gives the instruction back and leaves what is behind
(R120 to R127). -/
def Obligations.DecodeOfEncode : Prop :=
  ∀ (i : Instr) (rest : List Byte), decode (encode i ++ rest) = some (i, rest)

/-- Bytes that decode are the encoding of what they decode to: no two byte sequences stand for one instruction, and no bit
is ignored (R121, R137). -/
def Obligations.EncodeOfDecode : Prop :=
  ∀ (bytes rest : List Byte) (i : Instr), decode bytes = some (i, rest) → bytes = encode i ++ rest

/-- Bytes are one well-formed instruction exactly when they are the encoding of some instruction: well-formedness being the
list of empty slots of R136 and the operand counts of R122. -/
def Obligations.WellFormedBytesAreEncodings : Prop :=
  ∀ bytes : List Byte, wellFormedBytes bytes = true ↔ ∃ i : Instr, bytes = encode i

/-- R136, R321: fetching one of the 105 listed bytes as an opcode raises `InvalidOpcode`, and fetching any other byte
executes an instruction. -/
def Obligations.EmptySlotsFault : Prop :=
  emptyOpcodes.length = 105 ∧
  ∀ s : State,
    ((memRead s.PC s).1.toNat ∈ emptyOpcodes → step s = .fault (.invalidOpcode s.PC (memRead s.PC s).1)) ∧
    ((memRead s.PC s).1.toNat ∉ emptyOpcodes → ∃ t, step s = .next t)

/-- The examples of R140, bit by bit: each row of the table of modes decodes to the instruction it stands for. -/
def Obligations.CustomarySyntaxExamplesDecode : Prop :=
  decode [0x18] = some (.clc, []) ∧ decode [0x0A] = some (.aslAcc, []) ∧ decode [0xA9, 0x10] = some (.ldaImm 0x10, []) ∧
  decode [0xA5, 0x10] = some (.ldaZp 0x10, []) ∧ decode [0xB5, 0x10] = some (.ldaZpx 0x10, []) ∧
  decode [0xB6, 0x10] = some (.ldxZpy 0x10, []) ∧ decode [0xAD, 0x34, 0x12] = some (.ldaAbs 0x1234, []) ∧
  decode [0xBD, 0x34, 0x12] = some (.ldaAbx 0x1234, []) ∧ decode [0xB9, 0x34, 0x12] = some (.ldaAby 0x1234, []) ∧
  decode [0x6C, 0x34, 0x12] = some (.jmpInd 0x1234, []) ∧ decode [0xA1, 0x10] = some (.ldaIzx 0x10, []) ∧
  decode [0xB1, 0x10] = some (.ldaIzy 0x10, []) ∧ decode [0xF0, 0x0E] = some (.beq 0x0E, [])

/-! ## The step -/

/-- R126 to R128, R138: when the bytes read at PC decode to an instruction, the step is that instruction, run in the state
after the reads its length calls for (the opcode; one more read for lengths 1 and 2, two more for length 3), followed by
the boundary test. That the one more read of a form of length 1 is always made and discarded is the spec's decision D8
(notes/assumptions/13.md). -/
def Obligations.StepRunsDecodedInstruction : Prop :=
  ∀ (s : State) (i : Instr) (rest : List Byte),
    let r0 := memRead s.PC s
    let r1 := memRead (s.PC + 1) r0.2
    let r2 := memRead (s.PC + 2) r1.2
    decode [r0.1, r1.1, r2.1] = some (i, rest) →
      step s = (match exec i (if i.length = 3 then r2.2 else r1.2) with
        | .next t => .next (serviceInterrupt t)
        | .fault r => .fault r
        | .refused r => .refused r)

/-- R138, R48, R51: every instruction completes in every state, and leaves the three latches alone; each register and flag
it is not listed for in the table of R51 is unchanged. -/
def Obligations.InstructionsCompleteAndKeepRegisters : Prop :=
  ∀ (i : Instr) (s : State), ∃ sl t, i.slot? = some sl ∧ exec i s = .next t ∧
    (t.pendReset = s.pendReset ∧ t.pendNMI = s.pendNMI ∧ t.pendIRQ = s.pendIRQ) ∧
    (sl.mnemonic ∉ writesA → sl.mode ≠ .acc → t.A = s.A) ∧
    (sl.mnemonic ∉ writesX → t.X = s.X) ∧
    (sl.mnemonic ∉ writesY → t.Y = s.Y) ∧
    (sl.mnemonic ∉ writesSP → t.SP = s.SP) ∧
    (sl.mnemonic ∉ writesC → t.C = s.C) ∧
    (sl.mnemonic ∉ writesZN → t.Z = s.Z ∧ t.N = s.N) ∧
    (sl.mnemonic ∉ writesV → t.V = s.V) ∧
    (sl.mnemonic ∉ writesI → t.I = s.I) ∧
    (sl.mnemonic ∉ writesD → t.D = s.D) ∧
    (sl.mnemonic ∉ writesB → t.B = s.B)

/-- The frame of storage: every instruction completes, and every byte outside the cells it stores to reads as before. -/
def Obligations.InstructionsKeepOtherStorage : Prop :=
  ∀ (i : Instr) (s : State), ∃ t, exec i s = .next t ∧
    ∀ a : Word, (∀ b ∈ storedTo i s, phys a ≠ phys b) → peek t a = peek s a

/-- R358: an instruction none of whose accesses is in the window leaves the device as it was. -/
def Obligations.DeviceChangesOnlyThroughTheWindow : Prop :=
  ∀ (i : Instr) (s : State), ∃ t, exec i s = .next t ∧
    ((∀ a ∈ accessed i s, inWindow a = false) → t.ps = s.ps)

/-- R320 to R324: a step either executes an instruction or raises `InvalidOpcode` with PC and the byte there; it never
raises `AddressOutOfRange` and is never refused. After a fault the state is the state before the step, but for the device
when PC lies in the window; outside the window the next step raises the same fault. That nothing changes is the spec's
decision D26 (notes/assumptions/13.md); that the state after a fault is the function `afterInvalidOpcode`, since the outcome
carries none, is the model's choice (notes/assumptions/15.md). -/
def Obligations.InvalidOpcodeIsTheOnlyFault : Prop :=
  ∀ s : State, (∃ t, step s = .next t) ∨
    (AtInvalidOpcode s ∧ step s = .fault (.invalidOpcode s.PC (memRead s.PC s).1) ∧
      SameCore s (afterInvalidOpcode s) ∧
      (inWindow s.PC = false → afterInvalidOpcode s = s ∧
        step (afterInvalidOpcode s) = .fault (.invalidOpcode s.PC (peek s s.PC))))

/-- Every step keeps storage in its canonical form, from every state that has it. -/
def Obligations.StepKeepsStorageCanonical : Prop :=
  ∀ s t : State, StorageCanonical s → step s = .next t → StorageCanonical t

/-- Power-on gives a state with canonical storage, whatever the canonical `MEM_INIT`, the banks and the device; so does
`State.reset`. -/
def Obligations.PowerOnStorageCanonical : Prop :=
  StorageCanonical State.reset ∧
  ∀ (m : Memory) (bank0 : Bank) (bank1 : Option Bank) (device : Periph),
    Memory.wf m = true → StorageCanonical (powerOnWith m bank0 bank1 device)

/-! ## Reset -/

/-- R54, R380: power-on over any storage: PC is the word at $FFFC, SP is $FD, I is 1, the other registers, flags and
latches are 0, storage and device are the given ones. All values but PC are the spec's own decision D16
(notes/assumptions/3.md). -/
def Obligations.PowerOnState : Prop :=
  ∀ (m : Memory) (device : Periph),
    powerOn m device =
      { A := 0, X := 0, Y := 0, SP := 0xFD
        PC := wordOf (Memory.get m 0xFFFD) (Memory.get m 0xFFFC)
        C := false, Z := false, I := true, D := false, B := false, V := false, N := false
        pendReset := false, pendNMI := false, pendIRQ := false
        mem := m, ps := device }

/-- R386: the loader puts bank 0 at $8000 and bank 1, or bank 0 again, at $C000, and leaves every other cell; so the reset
vector is the third last word of the bank at $C000. -/
def Obligations.LoaderPlacesBanks : Prop :=
  ∀ (m : Memory) (bank0 : Bank) (bank1 : Option Bank) (device : Periph),
    let s := powerOnWith m bank0 bank1 device
    (∀ i : Fin 16384, Memory.get s.mem (0x8000 + i) = bank0[i]) ∧
    (∀ i : Fin 16384, Memory.get s.mem (0xC000 + i) = (bank1.getD bank0)[i]) ∧
    (∀ k : Nat, k < 0x8000 ∨ 0x10000 ≤ k → Memory.get s.mem k = Memory.get m k) ∧
    s.PC = wordOf ((bank1.getD bank0)[16381]) ((bank1.getD bank0)[16380])

/-! ## The bus -/

/-- R75, R80, R81: after a write of plain storage, a read outside the window gives the byte written where the address
selects the same cell, and otherwise the byte it gave before; the write changes nothing but storage. -/
def Obligations.StorageReadAfterWrite : Prop :=
  ∀ (a b : Word) (v : Byte) (s : State), inWindow a = false → inWindow b = false →
    memRead b (memWrite a v s) = ((if phys b = phys a then v else (memRead b s).1), memWrite a v s) ∧
    memWrite a v s = { s with mem := (memWrite a v s).mem }

/-- R72, R73: a byte written below $2000 is read at all four mirror images of the address, and at no other address. -/
def Obligations.RamIsMirroredFourTimes : Prop :=
  ∀ (a b : Word) (v : Byte) (s : State), a.toNat < 0x2000 →
    (∀ k : Fin 4, (memRead (BitVec.ofNat 16 (a.toNat % 0x800 + k * 0x800)) (memWrite a v s)).1 = v) ∧
    (inWindow b = false → (0x2000 ≤ b.toNat ∨ b.toNat % 0x800 ≠ a.toNat % 0x800) →
      (memRead b (memWrite a v s)).1 = (memRead b s).1)

/-- R76, R358: a forwarded access changes nothing of the core: no register, flag, latch or byte of storage. -/
def Obligations.WindowAccessKeepsCore : Prop :=
  ∀ (a : Word) (v : Byte) (s : State), inWindow a = true →
    SameCore s (memRead a s).2 ∧ SameCore s (memWrite a v s) ∧
    (a.toNat ≠ 0x4014 → (memWrite a v s).ps = periphWrite a v s.ps)

/-- R77, R357: a write of page number v to $4014 reads the 256 addresses v * 256 + i through the bus, in ascending order,
each in the state the read before it left; OAM[i] is the byte of the i-th read; and the core is unchanged. -/
def Obligations.OamDmaCopiesPage : Prop :=
  ∀ (v : Byte) (s : State),
    let t := memWrite 0x4014 v s
    SameCore s t ∧
    ∃ st : Nat → State, st 0 = s ∧
      (∀ i : Nat, i < 256 → st (i + 1) = (memRead (BitVec.ofNat 16 (v.toNat * 256 + i)) (st i)).2) ∧
      (∀ i : Fin 256, t.ps.oam[i] = (memRead (BitVec.ofNat 16 (v.toNat * 256 + i)) (st i)).1) ∧
      t.ps = { (st 256).ps with oam := t.ps.oam, history := .dma t.ps.oam :: (st 256).ps.history }

/-- R83, R84: a word is read as two bytes, the low one first, the high one at the next address modulo 65536. -/
def Obligations.WordReadIsLittleEndian : Prop :=
  ∀ (a : Word) (s : State),
    let lo := memRead a s
    let hi := memRead (BitVec.ofNat 16 ((a.toNat + 1) % 65536)) lo.2
    memReadWord a s = (BitVec.ofNat 16 (hi.1.toNat * 256 + lo.1.toNat), hi.2)

/-- R90, R91: a push stores at $0100 + SP and then decrements SP modulo 256, a pop increments it and then reads; so a pop
after a push gives the byte back and restores SP, for every SP. -/
def Obligations.PushThenPop : Prop :=
  ∀ (v : Byte) (s : State),
    push v s = { memWrite (stackCell s.SP) v s with SP := BitVec.ofNat 8 (s.SP.toNat + 255) } ∧
    (pop s).1 = peek s (stackCell (BitVec.ofNat 8 (s.SP.toNat + 1))) ∧
    (pop s).2 = { s with SP := BitVec.ofNat 8 (s.SP.toNat + 1) } ∧
    pop (push v s) = (v, { push v s with SP := s.SP })

/-! ## Operand resolution -/

/-- R165 to R167, R169, R170: the effective addresses of the modes without a pointer, as numbers, with the wrap of the
zero-page forms inside page 0 and of the absolute forms modulo 65536 (decision D4), and the boundary-cross report of the
latter. -/
def Obligations.DirectEffectiveAddresses : Prop :=
  ∀ (b : Byte) (w : Word) (s : State),
    (effectiveAddr (.zp b) s).1.toNat = b.toNat ∧
    (effectiveAddr (.zpx b) s).1.toNat = (b.toNat + s.X.toNat) % 256 ∧
    (effectiveAddr (.zpy b) s).1.toNat = (b.toNat + s.Y.toNat) % 256 ∧
    (effectiveAddr (.abs w) s).1.toNat = w.toNat ∧
    (effectiveAddr (.abx w) s).1.toNat = (w.toNat + s.X.toNat) % 65536 ∧
    (effectiveAddr (.aby w) s).1.toNat = (w.toNat + s.Y.toNat) % 65536 ∧
    crosses (.abx w) s = decide ((w.toNat + s.X.toNat) % 65536 / 256 ≠ w.toNat / 256) ∧
    crosses (.aby w) s = decide ((w.toNat + s.Y.toNat) % 65536 / 256 ≠ w.toNat / 256)

/-- R172, R173, R160: the effective addresses through a pointer, both of whose bytes lie in page 0 (decision D6), their
boundary-cross reports; and resolution changes nothing, in any mode. -/
def Obligations.IndirectEffectiveAddresses : Prop :=
  ∀ (b : Byte) (s : State),
    let pointer := fun z : Nat =>
      (peek s (BitVec.ofNat 16 ((z + 1) % 256))).toNat * 256 + (peek s (BitVec.ofNat 16 (z % 256))).toNat
    (effectiveAddr (.izx b) s).1.toNat = pointer (b.toNat + s.X.toNat) ∧
    (effectiveAddr (.izy b) s).1.toNat = (pointer b.toNat + s.Y.toNat) % 65536 ∧
    crosses (.izx b) s = false ∧
    crosses (.izy b) s = decide ((pointer b.toNat + s.Y.toNat) % 65536 / 256 ≠ pointer b.toNat / 256) ∧
    (∀ m : MemOperand, (effectiveAddr m s).2 = s)

/-- R161: the boundary-cross report: adding the index to the base makes the low byte overflow; the modes without a base
never report. -/
def Obligations.CrossingIsLowByteOverflow : Prop :=
  ∀ (b : Byte) (w : Word) (s : State),
    (crosses (.abx w) s = true ↔ 256 ≤ w.toNat % 256 + s.X.toNat) ∧
    (crosses (.aby w) s = true ↔ 256 ≤ w.toNat % 256 + s.Y.toNat) ∧
    (crosses (.izy b) s = true ↔ 256 ≤ (peek s (BitVec.ofNat 16 b.toNat)).toNat + s.Y.toNat) ∧
    crosses (.zp b) s = false ∧ crosses (.zpx b) s = false ∧ crosses (.zpy b) s = false ∧
    crosses (.abs w) s = false ∧ crosses (.izx b) s = false

/-! ## Arithmetic, logic, compare -/

/-- ADC (R190), all eight forms: the encodings, and the state after it. The overflow is the rule's bitwise form. -/
def Obligations.AdcResult : Prop :=
  ∀ (b : Byte) (w : Word) (s : State), ∀ f ∈ adcForms b w, f.encoded s ∧
    (let m := byteOf f.operand s
     let sum := s.A.toNat + m.toNat + bitOf s.C 1
     let r : Byte := BitVec.ofNat 8 sum
     exec f.instr s = .next { stateOf f.operand s with
       A := r
       C := decide (255 < sum)
       V := decide ((s.A ^^^ r) &&& (m ^^^ r) &&& 0x80#8 ≠ 0#8)
       Z := decide (sum % 256 = 0)
       N := decide (128 ≤ sum % 256)
       PC := pcAfter f.length s })

/-- SBC (R191), all eight forms: the encodings, and the state after it, in the rule's integer form: C is "no borrow", V
says that the signed difference leaves -128 to 127. -/
def Obligations.SbcResult : Prop :=
  ∀ (b : Byte) (w : Word) (s : State), ∀ f ∈ sbcForms b w, f.encoded s ∧
    (let m := byteOf f.operand s
     let d : Int := s.A.toNat - m.toNat - (1 - bitOf s.C 1)
     let sd : Int := s.A.toInt - m.toInt - (1 - bitOf s.C 1)
     exec f.instr s = .next { stateOf f.operand s with
       A := BitVec.ofInt 8 d
       C := decide (0 ≤ d)
       V := decide (sd < -128 ∨ 127 < sd)
       Z := decide (d % 256 = 0)
       N := decide (128 ≤ d % 256)
       PC := pcAfter f.length s })

/-- AND, ORA, EOR (R200 to R202), all eight forms of each: the encodings, and the state after them, bit by bit. -/
def Obligations.LogicResult : Prop :=
  ∀ (b : Byte) (w : Word) (s : State),
    ∀ g ∈ [(Bool.and, andForms b w), (Bool.or, oraForms b w), (Bool.xor, eorForms b w)], ∀ f ∈ g.2, f.encoded s ∧
      ∃ r : Byte, (∀ k : Nat, k < 8 → r.getLsbD k = g.1 (s.A.getLsbD k) ((byteOf f.operand s).getLsbD k)) ∧
        exec f.instr s = .next { stateOf f.operand s with
          A := r, Z := decide (r.toNat = 0), N := decide (128 ≤ r.toNat), PC := pcAfter f.length s }

/-- ASL and LSR (R203, R204), all five forms of each: twice the byte, or half of it; the bit that leaves goes to C.
The cycle count of a memory form whose address is $4014 is the base only because the model fixes `DMA_CYCLES` at 0 (R7, D23,
notes/assumptions/12.md). -/
def Obligations.ShiftResult : Prop :=
  ∀ (b : Byte) (w : Word) (s : State),
    (∀ f ∈ aslForms b w, f.encoded s ∧
      (let v := (placeByte f.operand s).toNat
       exec f.instr s = .next { placeWritten f.operand (BitVec.ofNat 8 (2 * v)) s with
         C := decide (128 ≤ v), Z := decide (2 * v % 256 = 0), N := decide (128 ≤ 2 * v % 256),
         PC := pcAfter f.length s })) ∧
    (∀ f ∈ lsrForms b w, f.encoded s ∧
      (let v := (placeByte f.operand s).toNat
       exec f.instr s = .next { placeWritten f.operand (BitVec.ofNat 8 (v / 2)) s with
         C := decide (v % 2 = 1), Z := decide (v / 2 = 0), N := false, PC := pcAfter f.length s }))

/-- ROL and ROR (R205, R206), all five forms of each: the old carry enters at one end, the bit that leaves the other end
is the new carry. The cycle count of a memory form whose address is $4014 is the base only because the model fixes
`DMA_CYCLES` at 0 (R7, D23, notes/assumptions/12.md). -/
def Obligations.RotateResult : Prop :=
  ∀ (b : Byte) (w : Word) (s : State),
    (∀ f ∈ rolForms b w, f.encoded s ∧
      (let v := (placeByte f.operand s).toNat
       let r := (2 * v + bitOf s.C 1) % 256
       exec f.instr s = .next { placeWritten f.operand (BitVec.ofNat 8 r) s with
         C := decide (128 ≤ v), Z := decide (r = 0), N := decide (128 ≤ r), PC := pcAfter f.length s })) ∧
    (∀ f ∈ rorForms b w, f.encoded s ∧
      (let v := (placeByte f.operand s).toNat
       let r := v / 2 + bitOf s.C 128
       exec f.instr s = .next { placeWritten f.operand (BitVec.ofNat 8 r) s with
         C := decide (v % 2 = 1), Z := decide (r = 0), N := s.C, PC := pcAfter f.length s }))

/-- R205: nine ROLs of the accumulator restore the byte and the carry. -/
def Obligations.NineRotationsRestore : Prop :=
  ∀ s : State, ∃ st : Nat → State, st 0 = s ∧ (∀ i < 9, exec .rolAcc (st i) = .next (st (i + 1))) ∧
    (st 9).A = s.A ∧ (st 9).C = s.C

/-- CMP, CPX, CPY (R220 to R222), all forms: the unsigned comparison, equality, and bit 7 of the wrapped difference. -/
def Obligations.CompareResult : Prop :=
  ∀ (b : Byte) (w : Word) (s : State),
    ∀ g ∈ [(s.A, cmpForms b w), (s.X, cpxForms b w), (s.Y, cpyForms b w)], ∀ f ∈ g.2, f.encoded s ∧
      (let m := byteOf f.operand s
       exec f.instr s = .next { stateOf f.operand s with
         C := decide (m.toNat ≤ g.1.toNat), Z := decide (g.1.toNat = m.toNat),
         N := decide (128 ≤ (256 + g.1.toNat - m.toNat) % 256), PC := pcAfter f.length s })

/-- BIT (R223), both forms: Z from the AND with A, N and V from bits 7 and 6 of the operand itself. -/
def Obligations.BitResult : Prop :=
  ∀ (b : Byte) (w : Word) (s : State), ∀ f ∈ bitForms b w, f.encoded s ∧
    (let m := byteOf f.operand s
     exec f.instr s = .next { stateOf f.operand s with
       Z := decide (∀ k : Fin 8, (s.A.getLsbD k && m.getLsbD k) = false),
       N := decide (128 ≤ m.toNat), V := decide (64 ≤ m.toNat % 128), PC := pcAfter f.length s })

/-- R224: a compare of a register leaves the C, Z and N that SBC leaves from the same register value in A with C = 1, for
every operand the two share. -/
def Obligations.CompareIsSbcFlags : Prop :=
  ∀ (b : Byte) (w : Word) (s : State),
    ∀ g ∈ [(s.A, cmpForms b w), (s.X, cpxForms b w), (s.Y, cpyForms b w)], ∀ f ∈ g.2, ∀ f' ∈ sbcForms b w,
      f.operand = f'.operand → ∃ t t', exec f.instr s = .next t ∧
        exec f'.instr { s with A := g.1, C := true } = .next t' ∧ t.C = t'.C ∧ t.Z = t'.Z ∧ t.N = t'.N

/-! ## Branches and jumps -/

/-- R230 to R238: the eight branches: two bytes, PC + 2 when not taken, PC + 2 plus the signed offset when taken, nothing
else changed; 2 cycles, 1 more when taken, and 1 more when PC + off lies in another page than PC (decision D25,
notes/assumptions/12.md). -/
def Obligations.BranchResult : Prop :=
  ∀ (b : Byte) (s : State), ∀ f ∈ branchForms b s,
    let t : Int := (s.PC.toNat + sext8 b) % 65536
    encode f.instr = [f.opcode, b] ∧
    exec f.instr s = .next { s with
      PC := if f.cond then BitVec.ofInt 16 (s.PC.toNat + sext8 b + 2) else pcAfter 2 s } ∧
    Instr.cycles f.instr s =
      if f.cond then (if t / 256 ≠ s.PC.toNat / 256 then 4 else 3) else 2

/-- JMP (R239, R169, R171): PC takes the address, or the word at the pointer whose second byte is read in the page of the
first; nothing else changes but the device, if a pointer byte is in the window. The same-page read is decision D7
(notes/assumptions/12.md). -/
def Obligations.JmpResult : Prop :=
  ∀ (w : Word) (s : State),
    (encode (.jmpAbs w) = [0x4C, lowOf w, highOf w] ∧ exec (.jmpAbs w) s = .next { s with PC := w } ∧
      Instr.cycles (.jmpAbs w) s = 3) ∧
    (let lo := memRead w s
     let hi := memRead (samePageNext w) lo.2
     encode (.jmpInd w) = [0x6C, lowOf w, highOf w] ∧
     exec (.jmpInd w) s = .next { hi.2 with PC := wordOf hi.1 lo.1 } ∧ Instr.cycles (.jmpInd w) s = 5)

/-! ## The stack -/

/-- PHA and PHP (R250, R252): one byte at $0100 + SP; PHP sets B first, so its byte has bits 5 and 4 set. -/
def Obligations.PushInstructions : Prop :=
  ∀ s : State,
    (encode .pha = [0x48] ∧ Instr.cycles .pha s = 3 ∧
      exec .pha s = .next { memWrite (stackCell s.SP) s.A s with SP := s.SP - 1, PC := pcAfter 1 s }) ∧
    (encode .php = [0x08] ∧ Instr.cycles .php s = 3 ∧
      exec .php s = .next { memWrite (stackCell s.SP) (statusByte true s) s with
        SP := s.SP - 1, B := true, PC := pcAfter 1 s })

/-- PLA and PLP (R251, R253): the byte above SP, into A with Z and N from it, or into the seven flags, bit 5 ignored. -/
def Obligations.PullInstructions : Prop :=
  ∀ s : State,
    let p := peek s (stackCell (s.SP + 1))
    (encode .pla = [0x68] ∧ Instr.cycles .pla s = 4 ∧
      exec .pla s = .next { s with
        A := p, Z := decide (p.toNat = 0), N := decide (128 ≤ p.toNat), SP := s.SP + 1, PC := pcAfter 1 s }) ∧
    (encode .plp = [0x28] ∧ Instr.cycles .plp s = 4 ∧
      exec .plp s = .next { s with
        N := bitAt p 7, V := bitAt p 6, B := bitAt p 4, D := bitAt p 3, I := bitAt p 2, Z := bitAt p 1, C := bitAt p 0
        SP := s.SP + 1, PC := pcAfter 1 s })

/-- JSR (R254): the address of its last byte is pushed, high byte first, and PC takes the target. -/
def Obligations.JsrResult : Prop :=
  ∀ (w : Word) (s : State),
    encode (.jsr w) = [0x20, lowOf w, highOf w] ∧ Instr.cycles (.jsr w) s = 6 ∧
    exec (.jsr w) s = .next { wordPushed (pcAfter 2 s) s with PC := w }

/-- RTS (R255): the popped word, low byte first, plus 1. -/
def Obligations.RtsResult : Prop :=
  ∀ s : State,
    encode .rts = [0x60] ∧ Instr.cycles .rts s = 6 ∧
    exec .rts s = .next { s with
      SP := s.SP + 2
      PC := BitVec.ofNat 16
        ((peek s (stackCell (s.SP + 2))).toNat * 256 + (peek s (stackCell (s.SP + 1))).toNat + 1) }

/-- RTI (R256): the flags from the first byte popped, PC from the next two, with nothing added. -/
def Obligations.RtiResult : Prop :=
  ∀ s : State,
    let p := peek s (stackCell (s.SP + 1))
    encode .rti = [0x40] ∧ Instr.cycles .rti s = 6 ∧
    exec .rti s = .next { s with
      N := bitAt p 7, V := bitAt p 6, B := bitAt p 4, D := bitAt p 3, I := bitAt p 2, Z := bitAt p 1, C := bitAt p 0
      SP := s.SP + 3
      PC := wordOf (peek s (stackCell (s.SP + 3))) (peek s (stackCell (s.SP + 2))) }

/-- BRK (R257, decisions D9 to D11): the entry sequence to the vector at $FFFE with PC + 2 as return address and B = 1,
whatever I holds. -/
def Obligations.BrkResult : Prop :=
  ∀ s : State,
    encode .brk = [0x00] ∧ Instr.cycles .brk s = 7 ∧
    exec .brk s = .next (entered 0xFFFE (pcAfter 2 s) true s)

/-- R255: an RTS that finds SP and the two bytes as a JSR left them resumes at the address after the JSR, with SP as it was
before it. -/
def Obligations.JsrRtsRoundTrip : Prop :=
  ∀ (w : Word) (s u : State), ∃ t, exec (.jsr w) s = .next t ∧
    (u.SP = t.SP → peek u (stackCell s.SP) = peek t (stackCell s.SP) →
      peek u (stackCell (s.SP - 1)) = peek t (stackCell (s.SP - 1)) →
      ∃ v, exec .rts u = .next v ∧ v.PC = pcAfter 3 s ∧ v.SP = s.SP)

/-- R338, R256, R257: an RTI that finds SP and the three bytes as an NMI entry, an IRQ entry or a BRK left them restores
SP and the flags C, Z, I, D, V, N as they were; PC is the interrupted address, or the BRK's address + 2; B is 1 after a
BRK and 0 after an interrupt. -/
def Obligations.RtiUndoesEntry : Prop :=
  ∀ (s t u : State) (ret : Word) (b : Bool),
    ((exec .brk s = .next t ∧ ret = pcAfter 2 s ∧ b = true) ∨
      (t = service .nmi s ∧ ret = s.PC ∧ b = false) ∨ (t = service .irq s ∧ ret = s.PC ∧ b = false)) →
    u.SP = t.SP → (∀ k : Byte, k = 0 ∨ k = 1 ∨ k = 2 → peek u (stackCell (s.SP - k)) = peek t (stackCell (s.SP - k))) →
    ∃ v, exec .rti u = .next v ∧ v.PC = ret ∧ v.SP = s.SP ∧ v.B = b ∧
      v.C = s.C ∧ v.Z = s.Z ∧ v.I = s.I ∧ v.D = s.D ∧ v.V = s.V ∧ v.N = s.N

/-- R46, R47: the status byte of the flags unpacked from p is p with bit 5 set; and unpacking what was packed changes
nothing. -/
def Obligations.PackUnpackFlags : Prop :=
  ∀ (p : Byte) (s : State),
    packFlags (unpackFlags p s) = p ||| 0x20#8 ∧ packFlags s = statusByte s.B s ∧ unpackFlags (packFlags s) s = s

/-! ## Transfers, loads, stores, counters, flags -/

/-- R270 to R275: the six transfers; TSX sets Z and N, TXS does not. -/
def Obligations.TransferResult : Prop :=
  ∀ s : State,
    let zn := fun (v : Byte) (t : State) =>
      { t with Z := decide (v.toNat = 0), N := decide (128 ≤ v.toNat), PC := pcAfter 1 s }
    (encode .tax = [0xAA] ∧ exec .tax s = .next (zn s.A { s with X := s.A })) ∧
    (encode .tay = [0xA8] ∧ exec .tay s = .next (zn s.A { s with Y := s.A })) ∧
    (encode .txa = [0x8A] ∧ exec .txa s = .next (zn s.X { s with A := s.X })) ∧
    (encode .tya = [0x98] ∧ exec .tya s = .next (zn s.Y { s with A := s.Y })) ∧
    (encode .tsx = [0xBA] ∧ exec .tsx s = .next (zn s.SP { s with X := s.SP })) ∧
    (encode .txs = [0x9A] ∧ exec .txs s = .next { s with SP := s.X, PC := pcAfter 1 s }) ∧
    (∀ i ∈ [Instr.tax, .tay, .txa, .tya, .tsx, .txs], Instr.cycles i s = 2)

/-- R280 to R282: LDA, LDX, LDY in all their forms: the encodings, the register, Z and N; nothing else but the device. -/
def Obligations.LoadResult : Prop :=
  ∀ (b : Byte) (w : Word) (s : State),
    let zn := fun {α : Type} (f : Form α) (m : Byte) (t : State) =>
      { t with Z := decide (m.toNat = 0), N := decide (128 ≤ m.toNat), PC := pcAfter f.length s }
    (∀ f ∈ ldaForms b w, f.encoded s ∧
      exec f.instr s = .next (zn f (byteOf f.operand s) { stateOf f.operand s with A := byteOf f.operand s })) ∧
    (∀ f ∈ ldxForms b w, f.encoded s ∧
      exec f.instr s = .next (zn f (byteOf f.operand s) { stateOf f.operand s with X := byteOf f.operand s })) ∧
    (∀ f ∈ ldyForms b w, f.encoded s ∧
      exec f.instr s = .next (zn f (byteOf f.operand s) { stateOf f.operand s with Y := byteOf f.operand s }))

/-- R283 to R285, R286: STA, STX, STY in all their forms: the encodings and one write of the register at the effective
address, with no read of the target; nothing else but PC. The cycle count of a store to $4014 is the base only because the
model fixes `DMA_CYCLES` at 0 (R7, D23, notes/assumptions/12.md). -/
def Obligations.StoreResult : Prop :=
  ∀ (b : Byte) (w : Word) (s : State),
    ∀ g ∈ [(s.A, staForms b w), (s.X, stxForms b w), (s.Y, styForms b w)], ∀ f ∈ g.2, f.encoded s ∧
      exec f.instr s = .next { memWrite (effectiveAddr f.operand s).1 g.1 s with PC := pcAfter f.length s }

/-- R290, R291: INC and DEC in all their forms: one read, one write of the byte plus or minus 1 modulo 256, Z and N.
The cycle count of a form whose address is $4014 is the base only because the model fixes `DMA_CYCLES` at 0 (R7, D23,
notes/assumptions/12.md). -/
def Obligations.IncDecMemoryResult : Prop :=
  ∀ (b : Byte) (w : Word) (s : State),
    ∀ g ∈ [(1, incForms b w), (255, decForms b w)], ∀ f ∈ g.2, f.encoded s ∧
      (let r := ((placeByte f.operand s).toNat + g.1) % 256
       exec f.instr s = .next { placeWritten f.operand (BitVec.ofNat 8 r) s with
         Z := decide (r = 0), N := decide (128 ≤ r), PC := pcAfter f.length s })

/-- R292 to R295: INX, INY, DEX, DEY: the register plus or minus 1 modulo 256, Z and N, nothing else. -/
def Obligations.IncDecRegisterResult : Prop :=
  ∀ s : State,
    let zn := fun (r : Nat) (t : State) => { t with Z := decide (r = 0), N := decide (128 ≤ r), PC := pcAfter 1 s }
    let x1 := (s.X.toNat + 1) % 256
    let x2 := (s.X.toNat + 255) % 256
    let y1 := (s.Y.toNat + 1) % 256
    let y2 := (s.Y.toNat + 255) % 256
    (encode .inx = [0xE8] ∧ exec .inx s = .next (zn x1 { s with X := BitVec.ofNat 8 x1 })) ∧
    (encode .dex = [0xCA] ∧ exec .dex s = .next (zn x2 { s with X := BitVec.ofNat 8 x2 })) ∧
    (encode .iny = [0xC8] ∧ exec .iny s = .next (zn y1 { s with Y := BitVec.ofNat 8 y1 })) ∧
    (encode .dey = [0x88] ∧ exec .dey s = .next (zn y2 { s with Y := BitVec.ofNat 8 y2 })) ∧
    (∀ i ∈ [Instr.inx, .dex, .iny, .dey], Instr.cycles i s = 2)

/-- R296 to R303: the seven flag instructions write exactly one flag with a constant, and NOP writes none. -/
def Obligations.FlagInstructionsAndNop : Prop :=
  ∀ s : State,
    (encode .clc = [0x18] ∧ exec .clc s = .next { s with C := false, PC := pcAfter 1 s }) ∧
    (encode .sec = [0x38] ∧ exec .sec s = .next { s with C := true, PC := pcAfter 1 s }) ∧
    (encode .cli = [0x58] ∧ exec .cli s = .next { s with I := false, PC := pcAfter 1 s }) ∧
    (encode .sei = [0x78] ∧ exec .sei s = .next { s with I := true, PC := pcAfter 1 s }) ∧
    (encode .cld = [0xD8] ∧ exec .cld s = .next { s with D := false, PC := pcAfter 1 s }) ∧
    (encode .sed = [0xF8] ∧ exec .sed s = .next { s with D := true, PC := pcAfter 1 s }) ∧
    (encode .clv = [0xB8] ∧ exec .clv s = .next { s with V := false, PC := pcAfter 1 s }) ∧
    (encode .nop = [0xEA] ∧ exec .nop s = .next { s with PC := pcAfter 1 s }) ∧
    (∀ i ∈ [Instr.clc, .sec, .cli, .sei, .cld, .sed, .clv, .nop], Instr.cycles i s = 2)

/-- R42: D has no effect. Of every instruction but PHP and BRK (which push it), the outcome for another value of D is the
same outcome with D as that value; or the same outcome, where the instruction writes D. -/
def Obligations.DecimalFlagIsInert : Prop :=
  ∀ (i : Instr) (s : State) (d : Bool), i ≠ .php → i ≠ .brk → ∃ t, exec i s = .next t ∧
    exec i { s with D := d } =
      .next (if i = .cld ∨ i = .sed ∨ i = .plp ∨ i = .rti then t else { t with D := d })

/-! ## Interrupts -/

/-- R333 to R335, R55: the boundary test: a pending Reset is serviced first (nothing pushed, I set, PC from $FFFC), then a
pending NMI, then a pending IRQ when I is 0 (the address of the next instruction and the status byte with bit 4 = 0
pushed, I set, PC from the vector); only the serviced latch is cleared; otherwise nothing happens. The entry follows the
spec's decisions D9, D11, D12, D15 and D17 (notes/assumptions/12.md and 13.md). -/
def Obligations.BoundaryServesByPriority : Prop :=
  ∀ s : State,
    (s.pendReset = true → serviceInterrupt s =
      { s with pendReset := false, I := true, PC := wordOf (peek s 0xFFFD) (peek s 0xFFFC) }) ∧
    (s.pendReset = false → s.pendNMI = true →
      serviceInterrupt s = { entered 0xFFFA s.PC false s with pendNMI := false }) ∧
    (s.pendReset = false → s.pendNMI = false → s.pendIRQ = true → s.I = false →
      serviceInterrupt s = { entered 0xFFFE s.PC false s with pendIRQ := false }) ∧
    (s.pendReset = false → s.pendNMI = false → (s.pendIRQ = false ∨ s.I = true) → serviceInterrupt s = s)

/-- R331: `Trigger` sets the latch of its kind and changes nothing else; a second trigger of a pending kind changes
nothing. -/
def Obligations.TriggerSetsOneLatch : Prop :=
  ∀ (k : InterruptKind) (s : State),
    trigger k s = { s with
      pendReset := s.pendReset || k == .reset, pendNMI := s.pendNMI || k == .nmi, pendIRQ := s.pendIRQ || k == .irq } ∧
    trigger k (trigger k s) = trigger k s

/-- R298, R334: CLI takes effect at the boundary of its own step: with an IRQ pending and nothing else, the step that
executes CLI services it, pushes the address after the CLI and costs 2 + 7 cycles. No delay is the spec's decision D30
(notes/assumptions/13.md); the service cost is the model's choice of a parameter (notes/assumptions/12.md). -/
def Obligations.CliLetsPendingIrqIn : Prop :=
  ∀ s : State, fetchesStorage s.PC = true → peek s s.PC = 0x58 → s.pendReset = false → s.pendNMI = false →
    s.pendIRQ = true →
    step s = .next { entered 0xFFFE (pcAfter 1 s) false { s with I := false } with pendIRQ := false } ∧
    stepCycles s = some 9

/-- R323, R89: the host's bus calls raise `AddressOutOfRange` exactly for an address outside 0 to 65535, and otherwise do
what the bus does. -/
def Obligations.HostCallsCheckTheAddress : Prop :=
  ∀ (a : Int) (v : Byte) (s : State),
    ((a < 0 ∨ 65535 < a) → hostLoadByte a s = .fault (.addressOutOfRange a) ∧
      hostLoadWord a s = .fault (.addressOutOfRange a) ∧ hostStoreByte a v s = .fault (.addressOutOfRange a)) ∧
    (0 ≤ a → a ≤ 65535 → ∃ w : Word, (w.toNat : Int) = a ∧ hostLoadByte a s = .next (memRead w s) ∧
      hostLoadWord a s = .next ((lowOf (memReadWord w s).1, highOf (memReadWord w s).1), (memReadWord w s).2) ∧
      hostStoreByte a v s = .next (memWrite w v s))

/-! ## Cycles -/

/-- R401: a step that executes an instruction costs at least 2 cycles and, with `DMA_CYCLES` 0, at most 14. -/
def Obligations.StepCostsTwoToFourteen : Prop :=
  ∀ (s : State) (n : Nat), stepCycles s = some n → 2 ≤ n ∧ n ≤ 14

/-- R138, R139, R321: a cycle count is returned exactly by the steps that execute an instruction; it is the instruction's
cost, plus 7 when a request is taken at the boundary. That I = 1 holds an IRQ back (`IRQ_MASKING`, D12) and that a service
costs 7 (`SERVICE_CYCLES`, U3) are the model's choices of a parameter (notes/assumptions/12.md). -/
def Obligations.CyclesOfAStep : Prop :=
  ∀ (s t u : State) (i : Instr), fetch s = .next (i, t) → exec i t = .next u →
    (step s = .next (serviceInterrupt u)) ∧
    stepCycles s = some (Instr.cycles i t +
      if u.pendReset = true ∨ u.pendNMI = true ∨ (u.pendIRQ = true ∧ u.I = false) then 7 else 0)

/-! ## The attached device -/

/-- R353, R351: LDA $2002 returns the status byte of the two flags as they were, then clears vblank and only vblank: the hit
flag, the other registers the source names and storage are unchanged. The byte itself is a free value. -/
def Obligations.StatusReadClearsVblank : Prop :=
  ∀ s : State, ∃ t, exec (.ldaAbs 0x2002) s = .next t ∧ t.mem = s.mem ∧
    t.A = Config.statusByte s.ps.hit s.ps.vblank t.ps.history ∧
    t.ps = { s.ps with
      vblank := false, addrSecond := t.ps.addrSecond, history := .read 0x2002 :: s.ps.history }

/-- R355: two writes of $2006, from a state where the next one is the first of its pair, load the two halves of the internal
address register, in one order or the other; which one is a free value (notes/assumptions/7.md). -/
def Obligations.TwoWritesLoadTheAddress : Prop :=
  ∀ s : State, ∃ t u, exec (.staAbs 0x2006) s = .next t ∧ exec (.stxAbs 0x2006) t = .next u ∧
    (s.ps.addrSecond = false → u.ps.addrSecond = false ∧
      (u.ps.addr = wordOf s.A s.X ∨ u.ps.addr = wordOf s.X s.A)) ∧
    u.mem = s.mem

/-- R356: LDA $2007 returns the byte the buffer held when the internal address lies below the palette region, and the
buffer takes the device-memory byte of that address; above, that byte itself is returned. So of two reads the second
returns what the first fetched. The start of the region, the device memory and the advance are free values. -/
def Obligations.DataPortReadsOneStepBehind : Prop :=
  ∀ s : State, ∃ t, exec (.ldaAbs 0x2007) s = .next t ∧
    (let h := PeriphEvent.read 0x2007 :: s.ps.history
     t.ps.history = h ∧ t.ps.addr = s.ps.addr + Config.dataPortAdvance h ∧
     if s.ps.addr < Config.paletteStart then t.A = s.ps.buf ∧ t.ps.buf = Config.deviceMemory s.ps.addr h
     else t.A = Config.deviceMemory s.ps.addr h)

/-- R352, R354: a store to $2000 replaces the control register, to $2001 the mask register, to $2003 the OAM address; one
to $2004 stores the byte at the OAM address and at no other index. -/
def Obligations.DeviceRegisterWrites : Prop :=
  ∀ s : State, ∃ c m a o, exec (.staAbs 0x2000) s = .next c ∧ exec (.staAbs 0x2001) s = .next m ∧
    exec (.staAbs 0x2003) s = .next a ∧ exec (.staAbs 0x2004) s = .next o ∧
    c.ps = { s.ps with ctrl := s.A, history := .write 0x2000 s.A :: s.ps.history } ∧
    m.ps = { s.ps with mask := s.A, history := .write 0x2001 s.A :: s.ps.history } ∧
    a.ps = { s.ps with oamAddr := s.A, history := .write 0x2003 s.A :: s.ps.history } ∧
    (∀ i : Fin 256, o.ps.oam[i] = if i.val = s.ps.oamAddr.toNat then s.A else s.ps.oam[i])
end

