-- ==== Sys2Proof/Laws/Memory.lean ====
section
/-! SUPPORT. Storage as a list of cells: reading after writing, and the canonical form that every operation keeps. -/

namespace Sys2Proof.Machine

/-! ## Reading after writing -/

@[simp] theorem Memory.get_nil (a : Nat) : Memory.get [] a = Memory.unlisted := rfl

theorem Memory.get_erase (m : Memory) (a b : Nat) :
    Memory.get (Memory.erase m a) b = if b = a then Memory.unlisted else Memory.get m b := by
  induction m with
  | nil => simp [Memory.erase]
  | cons c m ih =>
    obtain ⟨k, w⟩ := c
    by_cases hk : k = a <;> by_cases hb : b = a <;> simp_all [Memory.erase, Memory.get]
    exact fun h => absurd h.symm hb

theorem Memory.get_insert_erase (m : Memory) (a : Nat) (v : Byte) (b : Nat) :
    Memory.get (Memory.insert (Memory.erase m a) a v) b = if b = a then v else Memory.get m b := by
  induction m with
  | nil => simp [Memory.erase, Memory.insert, Memory.get, eq_comm]
  | cons c m ih =>
    obtain ⟨k, w⟩ := c
    by_cases hk : k = a
    · subst hk
      simp only [Memory.erase, if_true, ih]
      by_cases hb : b = k
      · simp [hb]
      · have : k ≠ b := fun h => hb h.symm
        simp [Memory.get, hb, this]
    · simp only [Memory.erase, hk, if_false, Memory.insert]
      split
      · by_cases hb : b = a
        · simp [Memory.get, hb]
        · have : a ≠ b := fun h => hb h.symm
          simp only [Memory.get, this, if_false, hb, Memory.get_erase]
      · simp only [Memory.get, ih]
        by_cases hb : b = a
        · subst hb; simp [hk]
        · simp [hb]

/-- A cell after a write: the byte written, or the byte it had. -/
theorem Memory.get_set (m : Memory) (a : Nat) (v : Byte) (b : Nat) :
    Memory.get (Memory.set m a v) b = if b = a then v else Memory.get m b := by
  unfold Memory.set
  split
  · next h => rw [Memory.get_erase, h]
  · exact Memory.get_insert_erase m a v b

/-- A cell after several writes: the byte of its place in the list, or the byte it had. -/
theorem Memory.get_setAll (m : Memory) (a : Nat) (vs : List Byte) (b : Nat) :
    Memory.get (Memory.setAll m a vs) b =
      if a ≤ b then (vs[b - a]?).getD (Memory.get m b) else Memory.get m b := by
  induction vs generalizing m a with
  | nil => simp [Memory.setAll]
  | cons v vs ih =>
    simp only [Memory.setAll, ih, Memory.get_set]
    rcases Nat.lt_trichotomy a b with h | h | h
    · have h1 : b - a = b - (a + 1) + 1 := by omega
      have h2 : b ≠ a := by omega
      have h3 : a + 1 ≤ b := h
      have h4 : a ≤ b := by omega
      simp [h1, h2, h3, h4]
    · subst h; simp
    · have h1 : ¬ a + 1 ≤ b := by omega
      have h2 : ¬ a ≤ b := by omega
      have h3 : b ≠ a := by omega
      simp [h1, h2, h3]

/-! ## The canonical form -/

theorem Memory.wfFrom_weaken {m : Memory} {lo lo' : Nat} (h : Memory.wfFrom lo m = true) (hl : lo' ≤ lo) :
    Memory.wfFrom lo' m = true := by
  cases m with
  | nil => rfl
  | cons c m =>
    obtain ⟨k, v⟩ := c
    simp only [Memory.wfFrom, Bool.and_eq_true, decide_eq_true_eq] at h ⊢
    exact ⟨⟨⟨by omega, h.1.1.2⟩, h.1.2⟩, h.2⟩

theorem Memory.erase_wf {m : Memory} {lo : Nat} (a : Nat) (h : Memory.wfFrom lo m = true) :
    Memory.wfFrom lo (Memory.erase m a) = true := by
  induction m generalizing lo with
  | nil => rfl
  | cons c m ih =>
    obtain ⟨k, v⟩ := c
    simp only [Memory.wfFrom, Bool.and_eq_true, decide_eq_true_eq] at h
    simp only [Memory.erase]
    split
    · exact Memory.wfFrom_weaken (ih h.2) (by omega)
    · simp only [Memory.wfFrom, Bool.and_eq_true, decide_eq_true_eq]
      exact ⟨h.1, ih h.2⟩

/-- After a cell is taken off a canonical list, no entry has its index. -/
theorem Memory.insert_wf {m : Memory} {lo a : Nat} {v : Byte} (h : Memory.wfFrom lo m = true) (hl : lo ≤ a)
    (ha : isStorageIndex a = true) (hv : v ≠ Memory.unlisted) (hn : ∀ c ∈ m, c.1 ≠ a) :
    Memory.wfFrom lo (Memory.insert m a v) = true := by
  induction m generalizing lo with
  | nil => simp [Memory.insert, Memory.wfFrom, hl, ha, hv]
  | cons c m ih =>
    obtain ⟨k, w⟩ := c
    have hk : k ≠ a := hn (k, w) (by simp)
    simp only [Memory.wfFrom, Bool.and_eq_true, decide_eq_true_eq] at h
    simp only [Memory.insert]
    split
    · next hlt =>
      simp only [Memory.wfFrom, Bool.and_eq_true, decide_eq_true_eq]
      exact ⟨⟨⟨hl, ha⟩, by simpa using hv⟩, ⟨⟨by omega, h.1.1.2⟩, h.1.2⟩, h.2⟩
    · simp only [Memory.wfFrom, Bool.and_eq_true, decide_eq_true_eq]
      exact ⟨h.1, ih h.2 (by omega) (fun c hc => hn c (by simp [hc]))⟩

theorem Memory.erase_ne (m : Memory) (a : Nat) : ∀ c ∈ Memory.erase m a, c.1 ≠ a := by
  induction m with
  | nil => simp [Memory.erase]
  | cons c m ih =>
    obtain ⟨k, v⟩ := c
    intro e he
    simp only [Memory.erase] at he
    split at he
    · exact ih e he
    · rcases List.mem_cons.mp he with rfl | he
      · assumption
      · exact ih e he

/-- A write of a cell of storage keeps the canonical form. -/
theorem Memory.set_wf (m : Memory) (a : Nat) (v : Byte) (h : Memory.wf m = true) (ha : isStorageIndex a = true) :
    Memory.wf (Memory.set m a v) = true := by
  unfold Memory.set Memory.wf
  split
  · exact Memory.erase_wf a h
  · next hv => exact Memory.insert_wf (Memory.erase_wf a h) (Nat.zero_le _) ha hv (Memory.erase_ne m a)

/-- Writes of consecutive cells of storage keep the canonical form. -/
theorem Memory.setAll_wf (m : Memory) (a : Nat) (vs : List Byte) (h : Memory.wf m = true)
    (ha : ∀ i < vs.length, isStorageIndex (a + i) = true) : Memory.wf (Memory.setAll m a vs) = true := by
  induction vs generalizing m a with
  | nil => exact h
  | cons v vs ih =>
    refine ih _ _ (Memory.set_wf _ _ _ h (by simpa using ha 0 (by simp))) (fun i hi => ?_)
    have := ha (i + 1) (by simpa using hi)
    rwa [show a + 1 + i = a + (i + 1) by omega]

/-! ## Addresses -/

/-- The physical index as a number (R72): the low 8 KB modulo 2048. -/
theorem phys_eq (a : Word) : phys a = if a.toNat < 0x2000 then a.toNat % 0x800 else a.toNat := by
  have h : (a < 0x2000#16) ↔ a.toNat < 0x2000 := by simp [BitVec.lt_def]
  unfold phys
  simp only [h]
  split
  · rw [BitVec.toNat_and]; exact Nat.and_two_pow_sub_one_eq_mod a.toNat 11
  · rfl

/-- The window as numbers (R76). -/
theorem inWindow_iff (a : Word) : inWindow a = true ↔ (0x2000 ≤ a.toNat ∧ a.toNat ≤ 0x2007) ∨ a.toNat = 0x4014 := by
  simp [inWindow, BitVec.le_def, ← BitVec.toNat_inj]

/-- An address outside the window selects a cell of storage. -/
theorem isStorageIndex_phys {a : Word} (h : inWindow a = false) : isStorageIndex (phys a) = true := by
  rw [phys_eq]
  split
  · next hl =>
    have : a.toNat % 0x800 < 0x800 := Nat.mod_lt _ (by decide)
    simp [isStorageIndex]; omega
  · next hl =>
    have hlt : a.toNat < 0x10000 := a.isLt
    have hge : 0x2000 ≤ a.toNat := by omega
    simp [isStorageIndex, h, hlt, hge]

end Sys2Proof.Machine
end

