-- ==== Sys2Proof/Laws/State.lean ====
section
/-! SUPPORT. The fields of a state after each plain update of the core: one lemma per field and update, so that no proof
unfolds an update. -/

namespace Sys2Proof.Machine

/-! ## `setZN` -/

@[simp] theorem setZN_A (v : Byte) (s : State) : (setZN v s).A = s.A := rfl
@[simp] theorem setZN_X (v : Byte) (s : State) : (setZN v s).X = s.X := rfl
@[simp] theorem setZN_Y (v : Byte) (s : State) : (setZN v s).Y = s.Y := rfl
@[simp] theorem setZN_SP (v : Byte) (s : State) : (setZN v s).SP = s.SP := rfl
@[simp] theorem setZN_PC (v : Byte) (s : State) : (setZN v s).PC = s.PC := rfl
@[simp] theorem setZN_C (v : Byte) (s : State) : (setZN v s).C = s.C := rfl
@[simp] theorem setZN_Z (v : Byte) (s : State) : (setZN v s).Z = (v == 0) := rfl
@[simp] theorem setZN_I (v : Byte) (s : State) : (setZN v s).I = s.I := rfl
@[simp] theorem setZN_D (v : Byte) (s : State) : (setZN v s).D = s.D := rfl
@[simp] theorem setZN_B (v : Byte) (s : State) : (setZN v s).B = s.B := rfl
@[simp] theorem setZN_V (v : Byte) (s : State) : (setZN v s).V = s.V := rfl
@[simp] theorem setZN_N (v : Byte) (s : State) : (setZN v s).N = v.getLsbD 7 := rfl
@[simp] theorem setZN_pendReset (v : Byte) (s : State) : (setZN v s).pendReset = s.pendReset := rfl
@[simp] theorem setZN_pendNMI (v : Byte) (s : State) : (setZN v s).pendNMI = s.pendNMI := rfl
@[simp] theorem setZN_pendIRQ (v : Byte) (s : State) : (setZN v s).pendIRQ = s.pendIRQ := rfl
@[simp] theorem setZN_mem (v : Byte) (s : State) : (setZN v s).mem = s.mem := rfl
@[simp] theorem setZN_ps (v : Byte) (s : State) : (setZN v s).ps = s.ps := rfl

/-! ## `unpackFlags` -/

@[simp] theorem unpackFlags_A (p : Byte) (s : State) : (unpackFlags p s).A = s.A := rfl
@[simp] theorem unpackFlags_X (p : Byte) (s : State) : (unpackFlags p s).X = s.X := rfl
@[simp] theorem unpackFlags_Y (p : Byte) (s : State) : (unpackFlags p s).Y = s.Y := rfl
@[simp] theorem unpackFlags_SP (p : Byte) (s : State) : (unpackFlags p s).SP = s.SP := rfl
@[simp] theorem unpackFlags_PC (p : Byte) (s : State) : (unpackFlags p s).PC = s.PC := rfl
@[simp] theorem unpackFlags_C (p : Byte) (s : State) : (unpackFlags p s).C = p.getLsbD 0 := rfl
@[simp] theorem unpackFlags_Z (p : Byte) (s : State) : (unpackFlags p s).Z = p.getLsbD 1 := rfl
@[simp] theorem unpackFlags_I (p : Byte) (s : State) : (unpackFlags p s).I = p.getLsbD 2 := rfl
@[simp] theorem unpackFlags_D (p : Byte) (s : State) : (unpackFlags p s).D = p.getLsbD 3 := rfl
@[simp] theorem unpackFlags_B (p : Byte) (s : State) : (unpackFlags p s).B = p.getLsbD 4 := rfl
@[simp] theorem unpackFlags_V (p : Byte) (s : State) : (unpackFlags p s).V = p.getLsbD 6 := rfl
@[simp] theorem unpackFlags_N (p : Byte) (s : State) : (unpackFlags p s).N = p.getLsbD 7 := rfl
@[simp] theorem unpackFlags_pendReset (p : Byte) (s : State) : (unpackFlags p s).pendReset = s.pendReset := rfl
@[simp] theorem unpackFlags_pendNMI (p : Byte) (s : State) : (unpackFlags p s).pendNMI = s.pendNMI := rfl
@[simp] theorem unpackFlags_pendIRQ (p : Byte) (s : State) : (unpackFlags p s).pendIRQ = s.pendIRQ := rfl
@[simp] theorem unpackFlags_mem (p : Byte) (s : State) : (unpackFlags p s).mem = s.mem := rfl
@[simp] theorem unpackFlags_ps (p : Byte) (s : State) : (unpackFlags p s).ps = s.ps := rfl

/-! ## `compareFlags` -/

@[simp] theorem compareFlags_A (r m : Byte) (s : State) : (compareFlags r m s).A = s.A := rfl
@[simp] theorem compareFlags_X (r m : Byte) (s : State) : (compareFlags r m s).X = s.X := rfl
@[simp] theorem compareFlags_Y (r m : Byte) (s : State) : (compareFlags r m s).Y = s.Y := rfl
@[simp] theorem compareFlags_SP (r m : Byte) (s : State) : (compareFlags r m s).SP = s.SP := rfl
@[simp] theorem compareFlags_PC (r m : Byte) (s : State) : (compareFlags r m s).PC = s.PC := rfl
@[simp] theorem compareFlags_C (r m : Byte) (s : State) : (compareFlags r m s).C = decide (m.toNat ≤ r.toNat) := rfl
@[simp] theorem compareFlags_Z (r m : Byte) (s : State) : (compareFlags r m s).Z = (r == m) := rfl
@[simp] theorem compareFlags_I (r m : Byte) (s : State) : (compareFlags r m s).I = s.I := rfl
@[simp] theorem compareFlags_D (r m : Byte) (s : State) : (compareFlags r m s).D = s.D := rfl
@[simp] theorem compareFlags_B (r m : Byte) (s : State) : (compareFlags r m s).B = s.B := rfl
@[simp] theorem compareFlags_V (r m : Byte) (s : State) : (compareFlags r m s).V = s.V := rfl
@[simp] theorem compareFlags_N (r m : Byte) (s : State) : (compareFlags r m s).N = (r - m).getLsbD 7 := rfl
@[simp] theorem compareFlags_pendReset (r m : Byte) (s : State) : (compareFlags r m s).pendReset = s.pendReset := rfl
@[simp] theorem compareFlags_pendNMI (r m : Byte) (s : State) : (compareFlags r m s).pendNMI = s.pendNMI := rfl
@[simp] theorem compareFlags_pendIRQ (r m : Byte) (s : State) : (compareFlags r m s).pendIRQ = s.pendIRQ := rfl
@[simp] theorem compareFlags_mem (r m : Byte) (s : State) : (compareFlags r m s).mem = s.mem := rfl
@[simp] theorem compareFlags_ps (r m : Byte) (s : State) : (compareFlags r m s).ps = s.ps := rfl

/-! ## `bitFlags` -/

@[simp] theorem bitFlags_A (a m : Byte) (s : State) : (bitFlags a m s).A = s.A := rfl
@[simp] theorem bitFlags_X (a m : Byte) (s : State) : (bitFlags a m s).X = s.X := rfl
@[simp] theorem bitFlags_Y (a m : Byte) (s : State) : (bitFlags a m s).Y = s.Y := rfl
@[simp] theorem bitFlags_SP (a m : Byte) (s : State) : (bitFlags a m s).SP = s.SP := rfl
@[simp] theorem bitFlags_PC (a m : Byte) (s : State) : (bitFlags a m s).PC = s.PC := rfl
@[simp] theorem bitFlags_C (a m : Byte) (s : State) : (bitFlags a m s).C = s.C := rfl
@[simp] theorem bitFlags_Z (a m : Byte) (s : State) : (bitFlags a m s).Z = ((a &&& m) == 0) := rfl
@[simp] theorem bitFlags_I (a m : Byte) (s : State) : (bitFlags a m s).I = s.I := rfl
@[simp] theorem bitFlags_D (a m : Byte) (s : State) : (bitFlags a m s).D = s.D := rfl
@[simp] theorem bitFlags_B (a m : Byte) (s : State) : (bitFlags a m s).B = s.B := rfl
@[simp] theorem bitFlags_V (a m : Byte) (s : State) : (bitFlags a m s).V = m.getLsbD 6 := rfl
@[simp] theorem bitFlags_N (a m : Byte) (s : State) : (bitFlags a m s).N = m.getLsbD 7 := rfl
@[simp] theorem bitFlags_pendReset (a m : Byte) (s : State) : (bitFlags a m s).pendReset = s.pendReset := rfl
@[simp] theorem bitFlags_pendNMI (a m : Byte) (s : State) : (bitFlags a m s).pendNMI = s.pendNMI := rfl
@[simp] theorem bitFlags_pendIRQ (a m : Byte) (s : State) : (bitFlags a m s).pendIRQ = s.pendIRQ := rfl
@[simp] theorem bitFlags_mem (a m : Byte) (s : State) : (bitFlags a m s).mem = s.mem := rfl
@[simp] theorem bitFlags_ps (a m : Byte) (s : State) : (bitFlags a m s).ps = s.ps := rfl

/-! ## `advance` -/

@[simp] theorem advance_A (n : Nat) (s : State) : (advance n s).A = s.A := rfl
@[simp] theorem advance_X (n : Nat) (s : State) : (advance n s).X = s.X := rfl
@[simp] theorem advance_Y (n : Nat) (s : State) : (advance n s).Y = s.Y := rfl
@[simp] theorem advance_SP (n : Nat) (s : State) : (advance n s).SP = s.SP := rfl
@[simp] theorem advance_PC (n : Nat) (s : State) : (advance n s).PC = s.PC + BitVec.ofNat 16 n := rfl
@[simp] theorem advance_C (n : Nat) (s : State) : (advance n s).C = s.C := rfl
@[simp] theorem advance_Z (n : Nat) (s : State) : (advance n s).Z = s.Z := rfl
@[simp] theorem advance_I (n : Nat) (s : State) : (advance n s).I = s.I := rfl
@[simp] theorem advance_D (n : Nat) (s : State) : (advance n s).D = s.D := rfl
@[simp] theorem advance_B (n : Nat) (s : State) : (advance n s).B = s.B := rfl
@[simp] theorem advance_V (n : Nat) (s : State) : (advance n s).V = s.V := rfl
@[simp] theorem advance_N (n : Nat) (s : State) : (advance n s).N = s.N := rfl
@[simp] theorem advance_pendReset (n : Nat) (s : State) : (advance n s).pendReset = s.pendReset := rfl
@[simp] theorem advance_pendNMI (n : Nat) (s : State) : (advance n s).pendNMI = s.pendNMI := rfl
@[simp] theorem advance_pendIRQ (n : Nat) (s : State) : (advance n s).pendIRQ = s.pendIRQ := rfl
@[simp] theorem advance_mem (n : Nat) (s : State) : (advance n s).mem = s.mem := rfl
@[simp] theorem advance_ps (n : Nat) (s : State) : (advance n s).ps = s.ps := rfl

/-! ## `jumpTo` -/

@[simp] theorem jumpTo_A (target : Word) (s : State) : (jumpTo target s).A = s.A := rfl
@[simp] theorem jumpTo_X (target : Word) (s : State) : (jumpTo target s).X = s.X := rfl
@[simp] theorem jumpTo_Y (target : Word) (s : State) : (jumpTo target s).Y = s.Y := rfl
@[simp] theorem jumpTo_SP (target : Word) (s : State) : (jumpTo target s).SP = s.SP := rfl
@[simp] theorem jumpTo_PC (target : Word) (s : State) : (jumpTo target s).PC = target := rfl
@[simp] theorem jumpTo_C (target : Word) (s : State) : (jumpTo target s).C = s.C := rfl
@[simp] theorem jumpTo_Z (target : Word) (s : State) : (jumpTo target s).Z = s.Z := rfl
@[simp] theorem jumpTo_I (target : Word) (s : State) : (jumpTo target s).I = s.I := rfl
@[simp] theorem jumpTo_D (target : Word) (s : State) : (jumpTo target s).D = s.D := rfl
@[simp] theorem jumpTo_B (target : Word) (s : State) : (jumpTo target s).B = s.B := rfl
@[simp] theorem jumpTo_V (target : Word) (s : State) : (jumpTo target s).V = s.V := rfl
@[simp] theorem jumpTo_N (target : Word) (s : State) : (jumpTo target s).N = s.N := rfl
@[simp] theorem jumpTo_pendReset (target : Word) (s : State) : (jumpTo target s).pendReset = s.pendReset := rfl
@[simp] theorem jumpTo_pendNMI (target : Word) (s : State) : (jumpTo target s).pendNMI = s.pendNMI := rfl
@[simp] theorem jumpTo_pendIRQ (target : Word) (s : State) : (jumpTo target s).pendIRQ = s.pendIRQ := rfl
@[simp] theorem jumpTo_mem (target : Word) (s : State) : (jumpTo target s).mem = s.mem := rfl
@[simp] theorem jumpTo_ps (target : Word) (s : State) : (jumpTo target s).ps = s.ps := rfl

end Sys2Proof.Machine
end

