-- ==== Sys2Proof/Laws/Bus.lean ====
section
/-! SUPPORT. What an access of the bus can do (R76 to R81, R358): a read changes nothing but the device, a write nothing
but storage or the device, and the device only inside the window. -/

namespace Sys2Proof.Machine

/-! ## Reads -/

/-- A read of plain storage returns the byte of the cell and changes nothing (R75, R80). -/
theorem memRead_storage {a : Word} (h : inWindow a = false) (s : State) : memRead a s = (peek s a, s) := by
  simp [memRead, h]

/-- A read in the window is the device's (R76). -/
theorem memRead_window {a : Word} (h : inWindow a = true) (s : State) :
    memRead a s = ((periphRead a s.ps).1, { s with ps := (periphRead a s.ps).2 }) := by
  simp [memRead, h]

/-- A read changes nothing but the device. -/
theorem memRead_state (a : Word) (s : State) : (memRead a s).2 = { s with ps := (memRead a s).2.ps } := by
  unfold memRead; split <;> rfl

@[simp] theorem memRead_A (a : Word) (s : State) : (memRead a s).2.A = s.A := by
  unfold memRead; split <;> rfl
@[simp] theorem memRead_X (a : Word) (s : State) : (memRead a s).2.X = s.X := by
  unfold memRead; split <;> rfl
@[simp] theorem memRead_Y (a : Word) (s : State) : (memRead a s).2.Y = s.Y := by
  unfold memRead; split <;> rfl
@[simp] theorem memRead_SP (a : Word) (s : State) : (memRead a s).2.SP = s.SP := by
  unfold memRead; split <;> rfl
@[simp] theorem memRead_PC (a : Word) (s : State) : (memRead a s).2.PC = s.PC := by
  unfold memRead; split <;> rfl
@[simp] theorem memRead_C (a : Word) (s : State) : (memRead a s).2.C = s.C := by
  unfold memRead; split <;> rfl
@[simp] theorem memRead_Z (a : Word) (s : State) : (memRead a s).2.Z = s.Z := by
  unfold memRead; split <;> rfl
@[simp] theorem memRead_I (a : Word) (s : State) : (memRead a s).2.I = s.I := by
  unfold memRead; split <;> rfl
@[simp] theorem memRead_D (a : Word) (s : State) : (memRead a s).2.D = s.D := by
  unfold memRead; split <;> rfl
@[simp] theorem memRead_B (a : Word) (s : State) : (memRead a s).2.B = s.B := by
  unfold memRead; split <;> rfl
@[simp] theorem memRead_V (a : Word) (s : State) : (memRead a s).2.V = s.V := by
  unfold memRead; split <;> rfl
@[simp] theorem memRead_N (a : Word) (s : State) : (memRead a s).2.N = s.N := by
  unfold memRead; split <;> rfl
@[simp] theorem memRead_pendReset (a : Word) (s : State) : (memRead a s).2.pendReset = s.pendReset := by
  unfold memRead; split <;> rfl
@[simp] theorem memRead_pendNMI (a : Word) (s : State) : (memRead a s).2.pendNMI = s.pendNMI := by
  unfold memRead; split <;> rfl
@[simp] theorem memRead_pendIRQ (a : Word) (s : State) : (memRead a s).2.pendIRQ = s.pendIRQ := by
  unfold memRead; split <;> rfl
@[simp] theorem memRead_mem (a : Word) (s : State) : (memRead a s).2.mem = s.mem := by
  unfold memRead; split <;> rfl

/-! ## OAM DMA -/

/-- The reads of a DMA change nothing but the device. -/
theorem dmaReads_state (page : Byte) (n i : Nat) (d : Vector Byte 256) (s : State) :
    (dmaReads page n i d s).2 = { s with ps := (dmaReads page n i d s).2.ps } := by
  induction n generalizing i d s with
  | zero => rfl
  | succ n ih =>
    simp only [dmaReads]
    rw [ih, memRead_state]

@[simp] theorem dmaReads_A (page : Byte) (n i : Nat) (d : Vector Byte 256) (s : State) :
    (dmaReads page n i d s).2.A = s.A := by
  rw [dmaReads_state]
@[simp] theorem dmaReads_X (page : Byte) (n i : Nat) (d : Vector Byte 256) (s : State) :
    (dmaReads page n i d s).2.X = s.X := by
  rw [dmaReads_state]
@[simp] theorem dmaReads_Y (page : Byte) (n i : Nat) (d : Vector Byte 256) (s : State) :
    (dmaReads page n i d s).2.Y = s.Y := by
  rw [dmaReads_state]
@[simp] theorem dmaReads_SP (page : Byte) (n i : Nat) (d : Vector Byte 256) (s : State) :
    (dmaReads page n i d s).2.SP = s.SP := by
  rw [dmaReads_state]
@[simp] theorem dmaReads_PC (page : Byte) (n i : Nat) (d : Vector Byte 256) (s : State) :
    (dmaReads page n i d s).2.PC = s.PC := by
  rw [dmaReads_state]
@[simp] theorem dmaReads_C (page : Byte) (n i : Nat) (d : Vector Byte 256) (s : State) :
    (dmaReads page n i d s).2.C = s.C := by
  rw [dmaReads_state]
@[simp] theorem dmaReads_Z (page : Byte) (n i : Nat) (d : Vector Byte 256) (s : State) :
    (dmaReads page n i d s).2.Z = s.Z := by
  rw [dmaReads_state]
@[simp] theorem dmaReads_I (page : Byte) (n i : Nat) (d : Vector Byte 256) (s : State) :
    (dmaReads page n i d s).2.I = s.I := by
  rw [dmaReads_state]
@[simp] theorem dmaReads_D (page : Byte) (n i : Nat) (d : Vector Byte 256) (s : State) :
    (dmaReads page n i d s).2.D = s.D := by
  rw [dmaReads_state]
@[simp] theorem dmaReads_B (page : Byte) (n i : Nat) (d : Vector Byte 256) (s : State) :
    (dmaReads page n i d s).2.B = s.B := by
  rw [dmaReads_state]
@[simp] theorem dmaReads_V (page : Byte) (n i : Nat) (d : Vector Byte 256) (s : State) :
    (dmaReads page n i d s).2.V = s.V := by
  rw [dmaReads_state]
@[simp] theorem dmaReads_N (page : Byte) (n i : Nat) (d : Vector Byte 256) (s : State) :
    (dmaReads page n i d s).2.N = s.N := by
  rw [dmaReads_state]
@[simp] theorem dmaReads_pendReset (page : Byte) (n i : Nat) (d : Vector Byte 256) (s : State) :
    (dmaReads page n i d s).2.pendReset = s.pendReset := by
  rw [dmaReads_state]
@[simp] theorem dmaReads_pendNMI (page : Byte) (n i : Nat) (d : Vector Byte 256) (s : State) :
    (dmaReads page n i d s).2.pendNMI = s.pendNMI := by
  rw [dmaReads_state]
@[simp] theorem dmaReads_pendIRQ (page : Byte) (n i : Nat) (d : Vector Byte 256) (s : State) :
    (dmaReads page n i d s).2.pendIRQ = s.pendIRQ := by
  rw [dmaReads_state]
@[simp] theorem dmaReads_mem (page : Byte) (n i : Nat) (d : Vector Byte 256) (s : State) :
    (dmaReads page n i d s).2.mem = s.mem := by
  rw [dmaReads_state]

@[simp] theorem oamDMA_A (page : Byte) (s : State) : (oamDMA page s).A = s.A := by
  simp [oamDMA]
@[simp] theorem oamDMA_X (page : Byte) (s : State) : (oamDMA page s).X = s.X := by
  simp [oamDMA]
@[simp] theorem oamDMA_Y (page : Byte) (s : State) : (oamDMA page s).Y = s.Y := by
  simp [oamDMA]
@[simp] theorem oamDMA_SP (page : Byte) (s : State) : (oamDMA page s).SP = s.SP := by
  simp [oamDMA]
@[simp] theorem oamDMA_PC (page : Byte) (s : State) : (oamDMA page s).PC = s.PC := by
  simp [oamDMA]
@[simp] theorem oamDMA_C (page : Byte) (s : State) : (oamDMA page s).C = s.C := by
  simp [oamDMA]
@[simp] theorem oamDMA_Z (page : Byte) (s : State) : (oamDMA page s).Z = s.Z := by
  simp [oamDMA]
@[simp] theorem oamDMA_I (page : Byte) (s : State) : (oamDMA page s).I = s.I := by
  simp [oamDMA]
@[simp] theorem oamDMA_D (page : Byte) (s : State) : (oamDMA page s).D = s.D := by
  simp [oamDMA]
@[simp] theorem oamDMA_B (page : Byte) (s : State) : (oamDMA page s).B = s.B := by
  simp [oamDMA]
@[simp] theorem oamDMA_V (page : Byte) (s : State) : (oamDMA page s).V = s.V := by
  simp [oamDMA]
@[simp] theorem oamDMA_N (page : Byte) (s : State) : (oamDMA page s).N = s.N := by
  simp [oamDMA]
@[simp] theorem oamDMA_pendReset (page : Byte) (s : State) : (oamDMA page s).pendReset = s.pendReset := by
  simp [oamDMA]
@[simp] theorem oamDMA_pendNMI (page : Byte) (s : State) : (oamDMA page s).pendNMI = s.pendNMI := by
  simp [oamDMA]
@[simp] theorem oamDMA_pendIRQ (page : Byte) (s : State) : (oamDMA page s).pendIRQ = s.pendIRQ := by
  simp [oamDMA]
@[simp] theorem oamDMA_mem (page : Byte) (s : State) : (oamDMA page s).mem = s.mem := by
  simp [oamDMA]

/-! ## Writes -/

/-- A write of plain storage replaces the byte of the cell and changes nothing else (R75, R81). -/
theorem memWrite_storage {a : Word} (h : inWindow a = false) (v : Byte) (s : State) :
    memWrite a v s = { s with mem := Memory.set s.mem (phys a) v } := by
  have hd : a ≠ 0x4014#16 := by rintro rfl; simp [inWindow] at h
  simp [memWrite, h, hd]

/-- A write in $2000 to $2007 is the device's (R76). -/
theorem memWrite_window {a : Word} (h : inWindow a = true) (hd : a ≠ 0x4014#16) (v : Byte) (s : State) :
    memWrite a v s = { s with ps := periphWrite a v s.ps } := by
  simp [memWrite, h, hd]

/-- A write of $4014 is an OAM DMA (R77). -/
theorem memWrite_dma (v : Byte) (s : State) : memWrite 0x4014#16 v s = oamDMA v s := by
  simp [memWrite]

@[simp] theorem memWrite_A (a : Word) (v : Byte) (s : State) : (memWrite a v s).A = s.A := by
  unfold memWrite; split
  · simp
  · split <;> rfl
@[simp] theorem memWrite_X (a : Word) (v : Byte) (s : State) : (memWrite a v s).X = s.X := by
  unfold memWrite; split
  · simp
  · split <;> rfl
@[simp] theorem memWrite_Y (a : Word) (v : Byte) (s : State) : (memWrite a v s).Y = s.Y := by
  unfold memWrite; split
  · simp
  · split <;> rfl
@[simp] theorem memWrite_SP (a : Word) (v : Byte) (s : State) : (memWrite a v s).SP = s.SP := by
  unfold memWrite; split
  · simp
  · split <;> rfl
@[simp] theorem memWrite_PC (a : Word) (v : Byte) (s : State) : (memWrite a v s).PC = s.PC := by
  unfold memWrite; split
  · simp
  · split <;> rfl
@[simp] theorem memWrite_C (a : Word) (v : Byte) (s : State) : (memWrite a v s).C = s.C := by
  unfold memWrite; split
  · simp
  · split <;> rfl
@[simp] theorem memWrite_Z (a : Word) (v : Byte) (s : State) : (memWrite a v s).Z = s.Z := by
  unfold memWrite; split
  · simp
  · split <;> rfl
@[simp] theorem memWrite_I (a : Word) (v : Byte) (s : State) : (memWrite a v s).I = s.I := by
  unfold memWrite; split
  · simp
  · split <;> rfl
@[simp] theorem memWrite_D (a : Word) (v : Byte) (s : State) : (memWrite a v s).D = s.D := by
  unfold memWrite; split
  · simp
  · split <;> rfl
@[simp] theorem memWrite_B (a : Word) (v : Byte) (s : State) : (memWrite a v s).B = s.B := by
  unfold memWrite; split
  · simp
  · split <;> rfl
@[simp] theorem memWrite_V (a : Word) (v : Byte) (s : State) : (memWrite a v s).V = s.V := by
  unfold memWrite; split
  · simp
  · split <;> rfl
@[simp] theorem memWrite_N (a : Word) (v : Byte) (s : State) : (memWrite a v s).N = s.N := by
  unfold memWrite; split
  · simp
  · split <;> rfl
@[simp] theorem memWrite_pendReset (a : Word) (v : Byte) (s : State) : (memWrite a v s).pendReset = s.pendReset := by
  unfold memWrite; split
  · simp
  · split <;> rfl
@[simp] theorem memWrite_pendNMI (a : Word) (v : Byte) (s : State) : (memWrite a v s).pendNMI = s.pendNMI := by
  unfold memWrite; split
  · simp
  · split <;> rfl
@[simp] theorem memWrite_pendIRQ (a : Word) (v : Byte) (s : State) : (memWrite a v s).pendIRQ = s.pendIRQ := by
  unfold memWrite; split
  · simp
  · split <;> rfl

/-- A write changes nothing but storage and the device. -/
theorem memWrite_state (a : Word) (v : Byte) (s : State) :
    memWrite a v s = { s with mem := (memWrite a v s).mem, ps := (memWrite a v s).ps } := by
  unfold memWrite
  split
  · simp only [oamDMA]
    rw [dmaReads_state]
  · split <;> rfl

/-! ## An access depends on storage and the device alone -/

/-- Reading in a state with the same storage and device gives the same byte and the same device. -/
theorem memRead_congr (a : Word) {s t : State} (hm : t.mem = s.mem) (hp : t.ps = s.ps) :
    memRead a t = ((memRead a s).1, { t with ps := (memRead a s).2.ps }) := by
  unfold memRead peek
  split
  · simp [hp]
  · exact Prod.ext (by simp [hm]) (by simp [← hp])

/-- The reads of a DMA in a state with the same storage and device. -/
theorem dmaReads_congr (page : Byte) (n i : Nat) (d : Vector Byte 256) {s t : State} (hm : t.mem = s.mem)
    (hp : t.ps = s.ps) :
    dmaReads page n i d t = ((dmaReads page n i d s).1, { t with ps := (dmaReads page n i d s).2.ps }) := by
  induction n generalizing i d s t with
  | zero => simp only [dmaReads]; rw [← hp]
  | succ n ih =>
    simp only [dmaReads]
    rw [memRead_congr _ hm hp]
    exact ih _ _ (hm.trans (memRead_mem _ _).symm) rfl

/-- Writing in a state with the same storage and device gives the same storage and the same device. -/
theorem memWrite_congr (a : Word) (v : Byte) {s t : State} (hm : t.mem = s.mem) (hp : t.ps = s.ps) :
    memWrite a v t = { t with mem := (memWrite a v s).mem, ps := (memWrite a v s).ps } := by
  unfold memWrite
  split
  · simp only [oamDMA]
    rw [dmaReads_congr _ _ _ _ hm hp]
    simp [hm]
  · split
    · simp [hm, hp]
    · simp [hm, hp]

/-- A write in the window leaves storage alone (R76, R77). -/
theorem memWrite_window_mem {a : Word} (h : inWindow a = true) (v : Byte) (s : State) : (memWrite a v s).mem = s.mem := by
  unfold memWrite
  rw [if_pos h]
  split
  · simp
  · rfl

/-- A write keeps the canonical form of storage. -/
theorem memWrite_wf (a : Word) (v : Byte) (s : State) (h : Memory.wf s.mem = true) :
    Memory.wf (memWrite a v s).mem = true := by
  cases hw : inWindow a with
  | true => rw [memWrite_window_mem hw]; exact h
  | false => rw [memWrite_storage hw]; exact Memory.set_wf _ _ _ h (isStorageIndex_phys hw)

/-- A write outside the window leaves the device alone (R358). -/
theorem memWrite_storage_ps {a : Word} (h : inWindow a = false) (v : Byte) (s : State) :
    (memWrite a v s).ps = s.ps := by
  rw [memWrite_storage h]

/-- Any byte of storage after a write: the one written, where the address selects the written cell; else as before
(R73, R75). -/
theorem peek_memWrite {a : Word} (h : inWindow a = false) (v : Byte) (s : State) (b : Word) :
    peek (memWrite a v s) b = if phys b = phys a then v else peek s b := by
  rw [memWrite_storage h]
  simp [peek, Memory.get_set]

end Sys2Proof.Machine
end

