-- ==== Sys2Proof/Laws/Ops.lean ====
section
/-! SUPPORT. One lemma for each shared operation, saying everything it can do: the stack (R90 to R92), the vectors (R79,
R83), entering a handler and returning from one (R256, R257, R335), the service of an interrupt (R333 to R335), and operand
resolution (R160 to R178). The stack, the zero page and the vectors are never in the window, so none of these reaches the
device. -/

namespace Sys2Proof.Machine

/-! ## Words -/

@[simp] theorem loByte_mkWord (hi lo : Byte) : loByte (mkWord hi lo) = lo := by
  unfold loByte mkWord
  ext i hi
  simp

@[simp] theorem hiByte_mkWord (hi lo : Byte) : hiByte (mkWord hi lo) = hi := by
  unfold hiByte mkWord
  ext i hi
  have h : 8 + i < 16 := by omega
  have h' : i < 16 := by omega
  simp [h, h', BitVec.getLsbD_eq_getElem hi]

@[simp] theorem mkWord_hiByte_loByte (w : Word) : mkWord (hiByte w) (loByte w) = w := by
  unfold hiByte loByte mkWord
  ext i hi
  simp
  by_cases h : i < 8
  · simp [h, BitVec.getLsbD_eq_getElem hi]
  · have h1 : i - 8 < 8 := by omega
    have h2 : 8 + (i - 8) = i := by omega
    simp [h, h1, h2, BitVec.getLsbD_eq_getElem hi]

theorem toNat_mkWord (hi lo : Byte) : (mkWord hi lo).toNat = hi.toNat * 256 + lo.toNat := by
  unfold mkWord
  have h1 := hi.isLt
  have h2 := lo.isLt
  rw [BitVec.toNat_or, BitVec.toNat_shiftLeft, BitVec.toNat_setWidth, BitVec.toNat_setWidth]
  have e1 : hi.toNat % 2 ^ 16 = hi.toNat := Nat.mod_eq_of_lt (by omega)
  have e2 : lo.toNat % 2 ^ 16 = lo.toNat := Nat.mod_eq_of_lt (by omega)
  rw [e1, e2]
  have e3 : hi.toNat <<< 8 % 2 ^ 16 = hi.toNat <<< 8 := Nat.mod_eq_of_lt (by rw [Nat.shiftLeft_eq]; omega)
  rw [e3, ← Nat.shiftLeft_add_eq_or_of_lt (show lo.toNat < 2 ^ 8 from h2), Nat.shiftLeft_eq]

/-! ## Addresses that are never in the window -/

@[simp] theorem inWindow_stackAddr (sp : Byte) : inWindow (stackAddr sp) = false := by
  have h := sp.isLt
  have := toNat_mkWord 0x01#8 sp
  rw [Bool.eq_false_iff, ne_eq, inWindow_iff]
  simp only [stackAddr, BitVec.ofNat_eq_ofNat]
  simp at this
  omega

@[simp] theorem inWindow_zeroPage (b : Byte) : inWindow (zeroPage b) = false := by
  have h := b.isLt
  have := toNat_mkWord 0#8 b
  rw [Bool.eq_false_iff, ne_eq, inWindow_iff]
  simp only [zeroPage, BitVec.ofNat_eq_ofNat]
  simp at this
  omega

/-! ## The stack -/

/-- `Push` (R90). -/
theorem push_eq (v : Byte) (s : State) :
    push v s = { s with mem := Memory.set s.mem (phys (stackAddr s.SP)) v, SP := s.SP - 1 } := by
  simp [push, memWrite_storage]

/-- `Pop` (R91). -/
theorem pop_eq (s : State) : pop s = (peek s (stackAddr (s.SP + 1)), { s with SP := s.SP + 1 }) := by
  simp only [pop]
  rw [memRead_storage (inWindow_stackAddr _)]
  rfl

/-- Popping a word (R92). -/
theorem popWord_eq (s : State) :
    popWord s = (mkWord (peek s (stackAddr (s.SP + 2))) (peek s (stackAddr (s.SP + 1))), { s with SP := s.SP + 2 }) := by
  have h : s.SP + 1#8 + 1#8 = s.SP + 2#8 := by rw [BitVec.add_assoc]; rfl
  simp [popWord, pop_eq, h, peek]

/-! ## The vectors -/

/-- A word read from storage (R83). -/
theorem memReadWord_storage {a : Word} (h : inWindow a = false) (h' : inWindow (a + 1) = false) (s : State) :
    memReadWord a s = (mkWord (peek s (a + 1)) (peek s a), s) := by
  simp only [memReadWord, memRead_storage h, memRead_storage h']

/-- Loading PC from a vector changes nothing else (R79). -/
theorem loadVector_eq {vector : Word} (h : vector = nmiVector ∨ vector = resetVector ∨ vector = irqVector) (s : State) :
    loadVector vector s = { s with PC := mkWord (peek s (vector + 1)) (peek s vector) } := by
  rcases h with rfl | rfl | rfl <;>
    (unfold loadVector; rw [memReadWord_storage (by decide) (by decide)]; rfl)

/-! ## Entering a handler -/

/-- Storage after the entry sequence has pushed the return address and the flags. -/
def pushedFrame (ret : Word) (flags sp : Byte) (m : Memory) : Memory :=
  Memory.set (Memory.set (Memory.set m (phys (stackAddr sp)) (hiByte ret)) (phys (stackAddr (sp - 1))) (loByte ret))
    (phys (stackAddr (sp - 2))) flags

/-- Entering a handler (R257, R335): three bytes on the stack, B, I, SP and PC; nothing else. -/
theorem enterHandler_eq {vector : Word} (h : vector = nmiVector ∨ vector = irqVector) (ret : Word) (brk : Bool) (s : State) :
    enterHandler vector ret brk s =
      (let m := pushedFrame ret (packFlags { s with B := brk }) s.SP s.mem
       { s with
         B := brk
         I := true
         SP := s.SP - 3
         mem := m
         PC := mkWord (Memory.get m (phys (vector + 1))) (Memory.get m (phys vector)) }) := by
  have h2 : s.SP - 1#8 - 1#8 = s.SP - 2#8 := sub_sub _ _ _
  have h3 : s.SP - 2#8 - 1#8 = s.SP - 3#8 := sub_sub _ _ _
  have hv : vector = nmiVector ∨ vector = resetVector ∨ vector = irqVector := by tauto
  simp [enterHandler, loadVector_eq hv, pushWord, push_eq, h2, h3, pushedFrame, packFlags, peek]

/-- Returning from a handler (R256, R338): the flags and PC from the three bytes above SP; nothing else. -/
theorem returnFromHandler_eq (s : State) :
    returnFromHandler s =
      { unpackFlags (peek s (stackAddr (s.SP + 1))) s with
        SP := s.SP + 3
        PC := mkWord (peek s (stackAddr (s.SP + 3))) (peek s (stackAddr (s.SP + 2))) } := by
  have h2 : s.SP + 1#8 + 1#8 = s.SP + 2#8 := by rw [BitVec.add_assoc]; rfl
  have h3 : s.SP + 1#8 + 2#8 = s.SP + 3#8 := by rw [BitVec.add_assoc]; rfl
  simp [returnFromHandler, pop_eq, popWord_eq, h2, h3, peek, jumpTo, unpackFlags]

/-! ## Interrupt service -/

/-- What the boundary test can do (R333 to R335): nothing, or one service. -/
theorem serviceInterrupt_cases (s : State) :
    serviceInterrupt s = s ∧ selectInterrupt s = none ∨
    ∃ k, selectInterrupt s = some k ∧ serviceInterrupt s = service k s := by
  unfold serviceInterrupt
  cases h : selectInterrupt s with
  | none => exact .inl ⟨rfl, rfl⟩
  | some k => exact .inr ⟨k, rfl, rfl⟩

/-- Service of a Reset (R55). -/
theorem serviceReset_eq (s : State) :
    serviceReset s =
      { s with
        pendReset := false
        I := true
        PC := mkWord (peek s (resetVector + 1)) (peek s resetVector) } := by
  unfold serviceReset
  rw [loadVector_eq (.inr (.inl rfl))]
  rfl

/-! ## Operand resolution -/

/-- A pointer in the zero page (R172, R173). -/
theorem zeroPagePointer_eq (z : Byte) (s : State) :
    zeroPagePointer z s = (mkWord (peek s (zeroPage (z + 1))) (peek s (zeroPage z)), s) := by
  simp [zeroPagePointer, memRead_storage]

/-- Resolution of a memory operand changes nothing (R160): its pointer reads lie in the zero page. -/
@[simp] theorem effectiveAddr_state (m : MemOperand) (s : State) : (effectiveAddr m s).2 = s := by
  cases m <;> simp [effectiveAddr, zeroPagePointer_eq]

/-- What `LoadOperand` does (R174): an immediate byte, or one read at the effective address. -/
theorem loadOperand_mem (m : MemOperand) (s : State) : loadOperand (.mem m) s = memRead (effectiveAddr m s).1 s := by
  simp [loadOperand]

/-- `LoadOperand` changes nothing but the device. -/
theorem loadOperand_state (src : Source) (s : State) :
    (loadOperand src s).2 = { s with ps := (loadOperand src s).2.ps } := by
  cases src with
  | imm b1 => rfl
  | mem m => rw [loadOperand_mem]; exact memRead_state _ _

/-- The operand of a read-modify-write instruction: one read, and the place of the write. -/
theorem loadPlace_mem (m : MemOperand) (s : State) :
    loadPlace (.mem m) s =
      ((memRead (effectiveAddr m s).1 s).1, some (effectiveAddr m s).1, (memRead (effectiveAddr m s).1 s).2) := by
  simp [loadPlace]

/-- A store (R174, R286): one write at the effective address, then the length increment. -/
theorem storeOperand_eq (dst : MemOperand) (v : Byte) (s : State) :
    storeOperand dst v s = advance (memLength dst) (memWrite (effectiveAddr dst s).1 v s) := by
  simp [storeOperand]

end Sys2Proof.Machine
end

