-- ==== Sys2Proof/Laws/PerInstr.lean ====
section
/-! SUPPORT. A fact about every instruction as syntax, one lemma for each constructor: its opcode byte has a metadata slot,
outside the empty list of R136, and its encoding has the length of the slot's mode (R123, R125). -/

namespace Sys2Proof.Laws.Encoding

/-- The opcode of an instruction is populated, and its bytes are as many as its mode says. -/
def Statement (i : Instr) : Prop :=
  ∃ sl, metadata i.opcode = some sl ∧ populatedOpcode i.opcode = true ∧ (encode i).length = sl.mode.length

theorem adcImm (b1 : Byte) : Statement (.adcImm b1) := ⟨_, rfl, rfl, rfl⟩
theorem adcZp (b1 : Byte) : Statement (.adcZp b1) := ⟨_, rfl, rfl, rfl⟩
theorem adcZpx (b1 : Byte) : Statement (.adcZpx b1) := ⟨_, rfl, rfl, rfl⟩
theorem adcIzx (b1 : Byte) : Statement (.adcIzx b1) := ⟨_, rfl, rfl, rfl⟩
theorem adcIzy (b1 : Byte) : Statement (.adcIzy b1) := ⟨_, rfl, rfl, rfl⟩
theorem adcAbs (addr : Word) : Statement (.adcAbs addr) := ⟨_, rfl, rfl, rfl⟩
theorem adcAbx (addr : Word) : Statement (.adcAbx addr) := ⟨_, rfl, rfl, rfl⟩
theorem adcAby (addr : Word) : Statement (.adcAby addr) := ⟨_, rfl, rfl, rfl⟩
theorem sbcImm (b1 : Byte) : Statement (.sbcImm b1) := ⟨_, rfl, rfl, rfl⟩
theorem sbcZp (b1 : Byte) : Statement (.sbcZp b1) := ⟨_, rfl, rfl, rfl⟩
theorem sbcZpx (b1 : Byte) : Statement (.sbcZpx b1) := ⟨_, rfl, rfl, rfl⟩
theorem sbcIzx (b1 : Byte) : Statement (.sbcIzx b1) := ⟨_, rfl, rfl, rfl⟩
theorem sbcIzy (b1 : Byte) : Statement (.sbcIzy b1) := ⟨_, rfl, rfl, rfl⟩
theorem sbcAbs (addr : Word) : Statement (.sbcAbs addr) := ⟨_, rfl, rfl, rfl⟩
theorem sbcAbx (addr : Word) : Statement (.sbcAbx addr) := ⟨_, rfl, rfl, rfl⟩
theorem sbcAby (addr : Word) : Statement (.sbcAby addr) := ⟨_, rfl, rfl, rfl⟩
theorem andImm (b1 : Byte) : Statement (.andImm b1) := ⟨_, rfl, rfl, rfl⟩
theorem andZp (b1 : Byte) : Statement (.andZp b1) := ⟨_, rfl, rfl, rfl⟩
theorem andZpx (b1 : Byte) : Statement (.andZpx b1) := ⟨_, rfl, rfl, rfl⟩
theorem andIzx (b1 : Byte) : Statement (.andIzx b1) := ⟨_, rfl, rfl, rfl⟩
theorem andIzy (b1 : Byte) : Statement (.andIzy b1) := ⟨_, rfl, rfl, rfl⟩
theorem andAbs (addr : Word) : Statement (.andAbs addr) := ⟨_, rfl, rfl, rfl⟩
theorem andAbx (addr : Word) : Statement (.andAbx addr) := ⟨_, rfl, rfl, rfl⟩
theorem andAby (addr : Word) : Statement (.andAby addr) := ⟨_, rfl, rfl, rfl⟩
theorem oraImm (b1 : Byte) : Statement (.oraImm b1) := ⟨_, rfl, rfl, rfl⟩
theorem oraZp (b1 : Byte) : Statement (.oraZp b1) := ⟨_, rfl, rfl, rfl⟩
theorem oraZpx (b1 : Byte) : Statement (.oraZpx b1) := ⟨_, rfl, rfl, rfl⟩
theorem oraIzx (b1 : Byte) : Statement (.oraIzx b1) := ⟨_, rfl, rfl, rfl⟩
theorem oraIzy (b1 : Byte) : Statement (.oraIzy b1) := ⟨_, rfl, rfl, rfl⟩
theorem oraAbs (addr : Word) : Statement (.oraAbs addr) := ⟨_, rfl, rfl, rfl⟩
theorem oraAbx (addr : Word) : Statement (.oraAbx addr) := ⟨_, rfl, rfl, rfl⟩
theorem oraAby (addr : Word) : Statement (.oraAby addr) := ⟨_, rfl, rfl, rfl⟩
theorem eorImm (b1 : Byte) : Statement (.eorImm b1) := ⟨_, rfl, rfl, rfl⟩
theorem eorZp (b1 : Byte) : Statement (.eorZp b1) := ⟨_, rfl, rfl, rfl⟩
theorem eorZpx (b1 : Byte) : Statement (.eorZpx b1) := ⟨_, rfl, rfl, rfl⟩
theorem eorIzx (b1 : Byte) : Statement (.eorIzx b1) := ⟨_, rfl, rfl, rfl⟩
theorem eorIzy (b1 : Byte) : Statement (.eorIzy b1) := ⟨_, rfl, rfl, rfl⟩
theorem eorAbs (addr : Word) : Statement (.eorAbs addr) := ⟨_, rfl, rfl, rfl⟩
theorem eorAbx (addr : Word) : Statement (.eorAbx addr) := ⟨_, rfl, rfl, rfl⟩
theorem eorAby (addr : Word) : Statement (.eorAby addr) := ⟨_, rfl, rfl, rfl⟩
theorem aslAcc : Statement .aslAcc := ⟨_, rfl, rfl, rfl⟩
theorem aslZp (b1 : Byte) : Statement (.aslZp b1) := ⟨_, rfl, rfl, rfl⟩
theorem aslZpx (b1 : Byte) : Statement (.aslZpx b1) := ⟨_, rfl, rfl, rfl⟩
theorem aslAbs (addr : Word) : Statement (.aslAbs addr) := ⟨_, rfl, rfl, rfl⟩
theorem aslAbx (addr : Word) : Statement (.aslAbx addr) := ⟨_, rfl, rfl, rfl⟩
theorem lsrAcc : Statement .lsrAcc := ⟨_, rfl, rfl, rfl⟩
theorem lsrZp (b1 : Byte) : Statement (.lsrZp b1) := ⟨_, rfl, rfl, rfl⟩
theorem lsrZpx (b1 : Byte) : Statement (.lsrZpx b1) := ⟨_, rfl, rfl, rfl⟩
theorem lsrAbs (addr : Word) : Statement (.lsrAbs addr) := ⟨_, rfl, rfl, rfl⟩
theorem lsrAbx (addr : Word) : Statement (.lsrAbx addr) := ⟨_, rfl, rfl, rfl⟩
theorem rolAcc : Statement .rolAcc := ⟨_, rfl, rfl, rfl⟩
theorem rolZp (b1 : Byte) : Statement (.rolZp b1) := ⟨_, rfl, rfl, rfl⟩
theorem rolZpx (b1 : Byte) : Statement (.rolZpx b1) := ⟨_, rfl, rfl, rfl⟩
theorem rolAbs (addr : Word) : Statement (.rolAbs addr) := ⟨_, rfl, rfl, rfl⟩
theorem rolAbx (addr : Word) : Statement (.rolAbx addr) := ⟨_, rfl, rfl, rfl⟩
theorem rorAcc : Statement .rorAcc := ⟨_, rfl, rfl, rfl⟩
theorem rorZp (b1 : Byte) : Statement (.rorZp b1) := ⟨_, rfl, rfl, rfl⟩
theorem rorZpx (b1 : Byte) : Statement (.rorZpx b1) := ⟨_, rfl, rfl, rfl⟩
theorem rorAbs (addr : Word) : Statement (.rorAbs addr) := ⟨_, rfl, rfl, rfl⟩
theorem rorAbx (addr : Word) : Statement (.rorAbx addr) := ⟨_, rfl, rfl, rfl⟩
theorem cmpImm (b1 : Byte) : Statement (.cmpImm b1) := ⟨_, rfl, rfl, rfl⟩
theorem cmpZp (b1 : Byte) : Statement (.cmpZp b1) := ⟨_, rfl, rfl, rfl⟩
theorem cmpZpx (b1 : Byte) : Statement (.cmpZpx b1) := ⟨_, rfl, rfl, rfl⟩
theorem cmpIzx (b1 : Byte) : Statement (.cmpIzx b1) := ⟨_, rfl, rfl, rfl⟩
theorem cmpIzy (b1 : Byte) : Statement (.cmpIzy b1) := ⟨_, rfl, rfl, rfl⟩
theorem cmpAbs (addr : Word) : Statement (.cmpAbs addr) := ⟨_, rfl, rfl, rfl⟩
theorem cmpAbx (addr : Word) : Statement (.cmpAbx addr) := ⟨_, rfl, rfl, rfl⟩
theorem cmpAby (addr : Word) : Statement (.cmpAby addr) := ⟨_, rfl, rfl, rfl⟩
theorem cpxImm (b1 : Byte) : Statement (.cpxImm b1) := ⟨_, rfl, rfl, rfl⟩
theorem cpxZp (b1 : Byte) : Statement (.cpxZp b1) := ⟨_, rfl, rfl, rfl⟩
theorem cpxAbs (addr : Word) : Statement (.cpxAbs addr) := ⟨_, rfl, rfl, rfl⟩
theorem cpyImm (b1 : Byte) : Statement (.cpyImm b1) := ⟨_, rfl, rfl, rfl⟩
theorem cpyZp (b1 : Byte) : Statement (.cpyZp b1) := ⟨_, rfl, rfl, rfl⟩
theorem cpyAbs (addr : Word) : Statement (.cpyAbs addr) := ⟨_, rfl, rfl, rfl⟩
theorem bitZp (b1 : Byte) : Statement (.bitZp b1) := ⟨_, rfl, rfl, rfl⟩
theorem bitAbs (addr : Word) : Statement (.bitAbs addr) := ⟨_, rfl, rfl, rfl⟩
theorem bcc (b1 : Byte) : Statement (.bcc b1) := ⟨_, rfl, rfl, rfl⟩
theorem bcs (b1 : Byte) : Statement (.bcs b1) := ⟨_, rfl, rfl, rfl⟩
theorem beq (b1 : Byte) : Statement (.beq b1) := ⟨_, rfl, rfl, rfl⟩
theorem bmi (b1 : Byte) : Statement (.bmi b1) := ⟨_, rfl, rfl, rfl⟩
theorem bne (b1 : Byte) : Statement (.bne b1) := ⟨_, rfl, rfl, rfl⟩
theorem bpl (b1 : Byte) : Statement (.bpl b1) := ⟨_, rfl, rfl, rfl⟩
theorem bvc (b1 : Byte) : Statement (.bvc b1) := ⟨_, rfl, rfl, rfl⟩
theorem bvs (b1 : Byte) : Statement (.bvs b1) := ⟨_, rfl, rfl, rfl⟩
theorem jmpAbs (addr : Word) : Statement (.jmpAbs addr) := ⟨_, rfl, rfl, rfl⟩
theorem jmpInd (addr : Word) : Statement (.jmpInd addr) := ⟨_, rfl, rfl, rfl⟩
theorem pha : Statement .pha := ⟨_, rfl, rfl, rfl⟩
theorem pla : Statement .pla := ⟨_, rfl, rfl, rfl⟩
theorem php : Statement .php := ⟨_, rfl, rfl, rfl⟩
theorem plp : Statement .plp := ⟨_, rfl, rfl, rfl⟩
theorem jsr (addr : Word) : Statement (.jsr addr) := ⟨_, rfl, rfl, rfl⟩
theorem rts : Statement .rts := ⟨_, rfl, rfl, rfl⟩
theorem rti : Statement .rti := ⟨_, rfl, rfl, rfl⟩
theorem brk : Statement .brk := ⟨_, rfl, rfl, rfl⟩
theorem tax : Statement .tax := ⟨_, rfl, rfl, rfl⟩
theorem tay : Statement .tay := ⟨_, rfl, rfl, rfl⟩
theorem txa : Statement .txa := ⟨_, rfl, rfl, rfl⟩
theorem tya : Statement .tya := ⟨_, rfl, rfl, rfl⟩
theorem tsx : Statement .tsx := ⟨_, rfl, rfl, rfl⟩
theorem txs : Statement .txs := ⟨_, rfl, rfl, rfl⟩
theorem ldaImm (b1 : Byte) : Statement (.ldaImm b1) := ⟨_, rfl, rfl, rfl⟩
theorem ldaZp (b1 : Byte) : Statement (.ldaZp b1) := ⟨_, rfl, rfl, rfl⟩
theorem ldaZpx (b1 : Byte) : Statement (.ldaZpx b1) := ⟨_, rfl, rfl, rfl⟩
theorem ldaIzx (b1 : Byte) : Statement (.ldaIzx b1) := ⟨_, rfl, rfl, rfl⟩
theorem ldaIzy (b1 : Byte) : Statement (.ldaIzy b1) := ⟨_, rfl, rfl, rfl⟩
theorem ldaAbs (addr : Word) : Statement (.ldaAbs addr) := ⟨_, rfl, rfl, rfl⟩
theorem ldaAbx (addr : Word) : Statement (.ldaAbx addr) := ⟨_, rfl, rfl, rfl⟩
theorem ldaAby (addr : Word) : Statement (.ldaAby addr) := ⟨_, rfl, rfl, rfl⟩
theorem ldxImm (b1 : Byte) : Statement (.ldxImm b1) := ⟨_, rfl, rfl, rfl⟩
theorem ldxZp (b1 : Byte) : Statement (.ldxZp b1) := ⟨_, rfl, rfl, rfl⟩
theorem ldxZpy (b1 : Byte) : Statement (.ldxZpy b1) := ⟨_, rfl, rfl, rfl⟩
theorem ldxAbs (addr : Word) : Statement (.ldxAbs addr) := ⟨_, rfl, rfl, rfl⟩
theorem ldxAby (addr : Word) : Statement (.ldxAby addr) := ⟨_, rfl, rfl, rfl⟩
theorem ldyImm (b1 : Byte) : Statement (.ldyImm b1) := ⟨_, rfl, rfl, rfl⟩
theorem ldyZp (b1 : Byte) : Statement (.ldyZp b1) := ⟨_, rfl, rfl, rfl⟩
theorem ldyZpx (b1 : Byte) : Statement (.ldyZpx b1) := ⟨_, rfl, rfl, rfl⟩
theorem ldyAbs (addr : Word) : Statement (.ldyAbs addr) := ⟨_, rfl, rfl, rfl⟩
theorem ldyAbx (addr : Word) : Statement (.ldyAbx addr) := ⟨_, rfl, rfl, rfl⟩
theorem staZp (b1 : Byte) : Statement (.staZp b1) := ⟨_, rfl, rfl, rfl⟩
theorem staZpx (b1 : Byte) : Statement (.staZpx b1) := ⟨_, rfl, rfl, rfl⟩
theorem staIzx (b1 : Byte) : Statement (.staIzx b1) := ⟨_, rfl, rfl, rfl⟩
theorem staIzy (b1 : Byte) : Statement (.staIzy b1) := ⟨_, rfl, rfl, rfl⟩
theorem staAbs (addr : Word) : Statement (.staAbs addr) := ⟨_, rfl, rfl, rfl⟩
theorem staAbx (addr : Word) : Statement (.staAbx addr) := ⟨_, rfl, rfl, rfl⟩
theorem staAby (addr : Word) : Statement (.staAby addr) := ⟨_, rfl, rfl, rfl⟩
theorem stxZp (b1 : Byte) : Statement (.stxZp b1) := ⟨_, rfl, rfl, rfl⟩
theorem stxZpy (b1 : Byte) : Statement (.stxZpy b1) := ⟨_, rfl, rfl, rfl⟩
theorem stxAbs (addr : Word) : Statement (.stxAbs addr) := ⟨_, rfl, rfl, rfl⟩
theorem styZp (b1 : Byte) : Statement (.styZp b1) := ⟨_, rfl, rfl, rfl⟩
theorem styZpx (b1 : Byte) : Statement (.styZpx b1) := ⟨_, rfl, rfl, rfl⟩
theorem styAbs (addr : Word) : Statement (.styAbs addr) := ⟨_, rfl, rfl, rfl⟩
theorem incZp (b1 : Byte) : Statement (.incZp b1) := ⟨_, rfl, rfl, rfl⟩
theorem incZpx (b1 : Byte) : Statement (.incZpx b1) := ⟨_, rfl, rfl, rfl⟩
theorem incAbs (addr : Word) : Statement (.incAbs addr) := ⟨_, rfl, rfl, rfl⟩
theorem incAbx (addr : Word) : Statement (.incAbx addr) := ⟨_, rfl, rfl, rfl⟩
theorem decZp (b1 : Byte) : Statement (.decZp b1) := ⟨_, rfl, rfl, rfl⟩
theorem decZpx (b1 : Byte) : Statement (.decZpx b1) := ⟨_, rfl, rfl, rfl⟩
theorem decAbs (addr : Word) : Statement (.decAbs addr) := ⟨_, rfl, rfl, rfl⟩
theorem decAbx (addr : Word) : Statement (.decAbx addr) := ⟨_, rfl, rfl, rfl⟩
theorem inx : Statement .inx := ⟨_, rfl, rfl, rfl⟩
theorem iny : Statement .iny := ⟨_, rfl, rfl, rfl⟩
theorem dex : Statement .dex := ⟨_, rfl, rfl, rfl⟩
theorem dey : Statement .dey := ⟨_, rfl, rfl, rfl⟩
theorem clc : Statement .clc := ⟨_, rfl, rfl, rfl⟩
theorem sec : Statement .sec := ⟨_, rfl, rfl, rfl⟩
theorem cli : Statement .cli := ⟨_, rfl, rfl, rfl⟩
theorem sei : Statement .sei := ⟨_, rfl, rfl, rfl⟩
theorem cld : Statement .cld := ⟨_, rfl, rfl, rfl⟩
theorem sed : Statement .sed := ⟨_, rfl, rfl, rfl⟩
theorem clv : Statement .clv := ⟨_, rfl, rfl, rfl⟩
theorem nop : Statement .nop := ⟨_, rfl, rfl, rfl⟩

end Sys2Proof.Laws.Encoding
end

