-- ==== Sys2Proof/Laws/Step.lean ====
section
/-! SUPPORT. What a step can do, once: fetch, run, service; and what a fetch can do. -/

namespace Sys2Proof.Machine

/-- The reads after the opcode byte change nothing but the device. -/
theorem fetchOperands_state (md : Mode) (s : State) :
    (fetchOperands md s).2.2 = { s with ps := (fetchOperands md s).2.2.ps } := by
  unfold fetchOperands
  dsimp only
  split
  · exact memRead_state _ _
  · exact memRead_state _ _
  · dsimp only
    rw [memRead_state, memRead_state]

/-- A fetch that gives an instruction changes nothing but the device. -/
theorem fetch_next_state {s t : State} {i : Instr} (h : fetch s = .next (i, t)) : t = { s with ps := t.ps } := by
  unfold fetch at h
  dsimp only at h
  split at h
  · cases h
  · split at h
    · cases h
    · cases h
      rw [fetchOperands_state, memRead_state]

/-- A fetch is never refused, and its only fault is `InvalidOpcode` with PC and the byte read there (R321, R323). -/
theorem fetch_cases (s : State) :
    fetch s = .fault (.invalidOpcode s.PC (memRead s.PC s).1) ∨ ∃ i t, fetch s = .next (i, t) := by
  unfold fetch
  dsimp only
  split
  · exact .inl rfl
  · split
    · exact .inl rfl
    · exact .inr ⟨_, _, rfl⟩

/-- What a step that answers a next state has done (R138): a fetch, an instruction, and the boundary test. -/
theorem step_next_cases {s u : State} (h : step s = .next u) :
    ∃ i t v, fetch s = .next (i, t) ∧ exec i t = .next v ∧ u = serviceInterrupt v := by
  unfold step at h
  split at h
  · cases h
  · cases h
  · next i t hf =>
    split at h
    · cases h
    · cases h
    · next v he => cases h; exact ⟨i, t, v, hf, he, rfl⟩

/-- A step whose fetch gives an instruction and whose instruction completes. -/
theorem step_of_fetch {s t v : State} {i : Instr} (hf : fetch s = .next (i, t)) (he : exec i t = .next v) :
    step s = .next (serviceInterrupt v) := by
  simp [step, hf, he]

/-- The state after power-on is power-on over storage with nothing listed (R380, D18). -/
theorem reset_eq_powerOn : State.reset = powerOn [] Periph.initial := by
  unfold powerOn
  rw [loadVector_eq (.inr (.inl rfl))]
  rfl

end Sys2Proof.Machine
end

