-- ==== Sys2Proof/Tests/Slice0.lean ====
section
/-! SUPPORT. Tests. Expected values come from spec/: the rows of spec/95_test_vectors.md (the name ends in the row's id),
the grid of R131, the rules' worked examples. Then one witness for the hypotheses of each statement. -/



namespace Sys2Proof.Tests

set_option Elab.async false

open Sys2Proof Sys2Proof.Machine Sys2Proof.Spec

/-! ## Well-formedness: an ill-formed term for each check -/

/-- No opcode byte. -/
theorem test_wellformed_refuses_empty : wellFormedBytes [] = false := by decide

/-- An empty slot: $02 and $FF (R136). -/
theorem test_wellformed_refuses_empty_slot :
    wellFormedBytes [0x02] = false ∧ wellFormedBytes [0xFF] = false := by decide

/-- LDA absolute with one operand byte, and ADC immediate with none (R123). -/
theorem test_wellformed_refuses_truncated :
    wellFormedBytes [0xAD, 0x34] = false ∧ wellFormedBytes [0x69] = false := by decide

/-- CLC with an operand byte, LDA immediate with two (R123). -/
theorem test_wellformed_refuses_overlong :
    wellFormedBytes [0x18, 0x00] = false ∧ wellFormedBytes [0xA9, 0x10, 0x00] = false := by decide

/-- One instruction of each length. -/
theorem test_wellformed_accepts :
    wellFormedBytes [0x18] = true ∧ wellFormedBytes [0xA9, 0x10] = true ∧ wellFormedBytes [0xAD, 0x34, 0x12] = true := by
  decide

/-! ## Decoding: the grid of R131, row by row, with the operand bytes 34 12 behind each opcode byte -/

/-- What each of the sixteen opcode bytes of a row of the grid decodes to. -/
def decodedRow (hi : Nat) : List (Option (Instr × List Byte)) :=
  (List.range 16).map (fun lo => decode [BitVec.ofNat 8 (16 * hi + lo), 0x34, 0x12])

theorem test_decode_row_0 : decodedRow 0 =
    [some (.brk, [0x34, 0x12]), some (.oraIzx 0x34, [0x12]), none, none, none, some (.oraZp 0x34, [0x12]),
      some (.aslZp 0x34, [0x12]), none, some (.php, [0x34, 0x12]), some (.oraImm 0x34, [0x12]),
      some (.aslAcc, [0x34, 0x12]), none, none, some (.oraAbs 0x1234, []), some (.aslAbs 0x1234, []), none ] := by decide +kernel

theorem test_decode_row_1 : decodedRow 1 =
    [some (.bpl 0x34, [0x12]), some (.oraIzy 0x34, [0x12]), none, none, none, some (.oraZpx 0x34, [0x12]),
      some (.aslZpx 0x34, [0x12]), none, some (.clc, [0x34, 0x12]), some (.oraAby 0x1234, []), none, none, none,
      some (.oraAbx 0x1234, []), some (.aslAbx 0x1234, []), none ] := by decide +kernel

theorem test_decode_row_2 : decodedRow 2 =
    [some (.jsr 0x1234, []), some (.andIzx 0x34, [0x12]), none, none, some (.bitZp 0x34, [0x12]),
      some (.andZp 0x34, [0x12]), some (.rolZp 0x34, [0x12]), none, some (.plp, [0x34, 0x12]),
      some (.andImm 0x34, [0x12]), some (.rolAcc, [0x34, 0x12]), none, some (.bitAbs 0x1234, []),
      some (.andAbs 0x1234, []), some (.rolAbs 0x1234, []), none ] := by decide +kernel

theorem test_decode_row_3 : decodedRow 3 =
    [some (.bmi 0x34, [0x12]), some (.andIzy 0x34, [0x12]), none, none, none, some (.andZpx 0x34, [0x12]),
      some (.rolZpx 0x34, [0x12]), none, some (.sec, [0x34, 0x12]), some (.andAby 0x1234, []), none, none, none,
      some (.andAbx 0x1234, []), some (.rolAbx 0x1234, []), none ] := by decide +kernel

theorem test_decode_row_4 : decodedRow 4 =
    [some (.rti, [0x34, 0x12]), some (.eorIzx 0x34, [0x12]), none, none, none, some (.eorZp 0x34, [0x12]),
      some (.lsrZp 0x34, [0x12]), none, some (.pha, [0x34, 0x12]), some (.eorImm 0x34, [0x12]),
      some (.lsrAcc, [0x34, 0x12]), none, some (.jmpAbs 0x1234, []), some (.eorAbs 0x1234, []),
      some (.lsrAbs 0x1234, []), none ] := by decide +kernel

theorem test_decode_row_5 : decodedRow 5 =
    [some (.bvc 0x34, [0x12]), some (.eorIzy 0x34, [0x12]), none, none, none, some (.eorZpx 0x34, [0x12]),
      some (.lsrZpx 0x34, [0x12]), none, some (.cli, [0x34, 0x12]), some (.eorAby 0x1234, []), none, none, none,
      some (.eorAbx 0x1234, []), some (.lsrAbx 0x1234, []), none ] := by decide +kernel

theorem test_decode_row_6 : decodedRow 6 =
    [some (.rts, [0x34, 0x12]), some (.adcIzx 0x34, [0x12]), none, none, none, some (.adcZp 0x34, [0x12]),
      some (.rorZp 0x34, [0x12]), none, some (.pla, [0x34, 0x12]), some (.adcImm 0x34, [0x12]),
      some (.rorAcc, [0x34, 0x12]), none, some (.jmpInd 0x1234, []), some (.adcAbs 0x1234, []),
      some (.rorAbs 0x1234, []), none ] := by decide +kernel

theorem test_decode_row_7 : decodedRow 7 =
    [some (.bvs 0x34, [0x12]), some (.adcIzy 0x34, [0x12]), none, none, none, some (.adcZpx 0x34, [0x12]),
      some (.rorZpx 0x34, [0x12]), none, some (.sei, [0x34, 0x12]), some (.adcAby 0x1234, []), none, none, none,
      some (.adcAbx 0x1234, []), some (.rorAbx 0x1234, []), none ] := by decide +kernel

theorem test_decode_row_8 : decodedRow 8 =
    [none, some (.staIzx 0x34, [0x12]), none, none, some (.styZp 0x34, [0x12]), some (.staZp 0x34, [0x12]),
      some (.stxZp 0x34, [0x12]), none, some (.dey, [0x34, 0x12]), none, some (.txa, [0x34, 0x12]), none,
      some (.styAbs 0x1234, []), some (.staAbs 0x1234, []), some (.stxAbs 0x1234, []), none ] := by decide +kernel

theorem test_decode_row_9 : decodedRow 9 =
    [some (.bcc 0x34, [0x12]), some (.staIzy 0x34, [0x12]), none, none, some (.styZpx 0x34, [0x12]),
      some (.staZpx 0x34, [0x12]), some (.stxZpy 0x34, [0x12]), none, some (.tya, [0x34, 0x12]),
      some (.staAby 0x1234, []), some (.txs, [0x34, 0x12]), none, none, some (.staAbx 0x1234, []), none, none ] := by decide +kernel

theorem test_decode_row_A : decodedRow 10 =
    [some (.ldyImm 0x34, [0x12]), some (.ldaIzx 0x34, [0x12]), some (.ldxImm 0x34, [0x12]), none,
      some (.ldyZp 0x34, [0x12]), some (.ldaZp 0x34, [0x12]), some (.ldxZp 0x34, [0x12]), none,
      some (.tay, [0x34, 0x12]), some (.ldaImm 0x34, [0x12]), some (.tax, [0x34, 0x12]), none,
      some (.ldyAbs 0x1234, []), some (.ldaAbs 0x1234, []), some (.ldxAbs 0x1234, []), none ] := by decide +kernel

theorem test_decode_row_B : decodedRow 11 =
    [some (.bcs 0x34, [0x12]), some (.ldaIzy 0x34, [0x12]), none, none, some (.ldyZpx 0x34, [0x12]),
      some (.ldaZpx 0x34, [0x12]), some (.ldxZpy 0x34, [0x12]), none, some (.clv, [0x34, 0x12]),
      some (.ldaAby 0x1234, []), some (.tsx, [0x34, 0x12]), none, some (.ldyAbx 0x1234, []),
      some (.ldaAbx 0x1234, []), some (.ldxAby 0x1234, []), none ] := by decide +kernel

theorem test_decode_row_C : decodedRow 12 =
    [some (.cpyImm 0x34, [0x12]), some (.cmpIzx 0x34, [0x12]), none, none, some (.cpyZp 0x34, [0x12]),
      some (.cmpZp 0x34, [0x12]), some (.decZp 0x34, [0x12]), none, some (.iny, [0x34, 0x12]),
      some (.cmpImm 0x34, [0x12]), some (.dex, [0x34, 0x12]), none, some (.cpyAbs 0x1234, []),
      some (.cmpAbs 0x1234, []), some (.decAbs 0x1234, []), none ] := by decide +kernel

theorem test_decode_row_D : decodedRow 13 =
    [some (.bne 0x34, [0x12]), some (.cmpIzy 0x34, [0x12]), none, none, none, some (.cmpZpx 0x34, [0x12]),
      some (.decZpx 0x34, [0x12]), none, some (.cld, [0x34, 0x12]), some (.cmpAby 0x1234, []), none, none, none,
      some (.cmpAbx 0x1234, []), some (.decAbx 0x1234, []), none ] := by decide +kernel

theorem test_decode_row_E : decodedRow 14 =
    [some (.cpxImm 0x34, [0x12]), some (.sbcIzx 0x34, [0x12]), none, none, some (.cpxZp 0x34, [0x12]),
      some (.sbcZp 0x34, [0x12]), some (.incZp 0x34, [0x12]), none, some (.inx, [0x34, 0x12]),
      some (.sbcImm 0x34, [0x12]), some (.nop, [0x34, 0x12]), none, some (.cpxAbs 0x1234, []),
      some (.sbcAbs 0x1234, []), some (.incAbs 0x1234, []), none ] := by decide +kernel

theorem test_decode_row_F : decodedRow 15 =
    [some (.beq 0x34, [0x12]), some (.sbcIzy 0x34, [0x12]), none, none, none, some (.sbcZpx 0x34, [0x12]),
      some (.incZpx 0x34, [0x12]), none, some (.sed, [0x34, 0x12]), some (.sbcAby 0x1234, []), none, none, none,
      some (.sbcAbx 0x1234, []), some (.incAbx 0x1234, []), none ] := by decide +kernel

/-- A truncated instruction decodes to nothing. -/
theorem test_decode_truncated : decode [0xAD, 0x34] = none ∧ decode [] = none := by decide

/-- The operand bytes are taken low byte first (R84), and a table word is numbered from its first byte. -/
theorem test_decode_table_word :
    decodeTableWord 24 0x1234AD = some (.ldaAbs 0x1234) ∧ decodeTableWord 8 0x4C = some (.jmpAbs 0) ∧
      decodeTableWord 16 0xF6F0 = some (.beq 0xF6) ∧ decodeTableWord 8 0x02 = none := by decide

/-! ## One step on small states: rows of spec/95_test_vectors.md -/

/-- A state of the table: PC, A, X, Y, SP, the packed flags and the listed bytes of storage. -/
def start (pc : Word) (a x y sp p : Byte) (cells : List (Nat × Byte)) : State :=
  unpackFlags p { State.reset with
    A := a, X := x, Y := y, SP := sp, PC := pc, mem := cells.foldl (fun m c => Memory.set m c.1 c.2) [] }

/-- One step gives a state with these registers, flags, bytes and latches, and costs these cycles. -/
def stepsTo (s : State) (pc : Word) (a x y sp p : Byte) (cells : List (Word × Byte)) (rst nmi irq : Bool) (n : Nat) :
    Bool :=
  match step s with
  | .next t =>
    t.PC == pc && t.A == a && t.X == x && t.Y == y && t.SP == sp && packFlags t == p &&
      cells.all (fun c => peek t c.1 == c.2) && t.pendReset == rst && t.pendNMI == nmi && t.pendIRQ == irq &&
      stepCycles s == some n
  | _ => false

/-- A1: ADC #$01. -/
theorem test_adc_A1 : stepsTo (start 0x0600 0x7F 0x00 0x00 0xFD 0x24 [(0x0600, 0x69), (0x0601, 0x01)])
      0x0602 0x80 0x00 0x00 0xFD 0xE4 [] false false false 2 = true := by decide +kernel

/-- A2: ADC #$01. -/
theorem test_adc_A2 : stepsTo (start 0x0600 0xFF 0x00 0x00 0xFD 0x24 [(0x0600, 0x69), (0x0601, 0x01)])
      0x0602 0x00 0x00 0x00 0xFD 0x27 [] false false false 2 = true := by decide +kernel

/-- A12: ADC $12F0,X. -/
theorem test_adc_A12 : stepsTo (start 0x0600 0x01 0x20 0x00 0xFD 0x24 [(0x0310, 0x02), (0x0600, 0x7D), (0x0601, 0xF0), (0x0602, 0x12)])
      0x0603 0x03 0x20 0x00 0xFD 0x24 [] false false false 5 = true := by decide +kernel

/-- A16: ADC ($20),Y. -/
theorem test_adc_A16 : stepsTo (start 0x0600 0x01 0x00 0x10 0xFD 0x24 [(0x0020, 0xF8), (0x0021, 0x02), (0x0308, 0x02), (0x0600, 0x71), (0x0601, 0x20)])
      0x0602 0x03 0x00 0x10 0xFD 0x24 [] false false false 6 = true := by decide +kernel

/-- S1: SBC #$01. -/
theorem test_sbc_S1 : stepsTo (start 0x0600 0x00 0x00 0x00 0xFD 0x25 [(0x0600, 0xE9), (0x0601, 0x01)])
      0x0602 0xFF 0x00 0x00 0xFD 0xA4 [] false false false 2 = true := by decide +kernel

/-- S4: SBC #$FF. -/
theorem test_sbc_S4 : stepsTo (start 0x0600 0x7F 0x00 0x00 0xFD 0x25 [(0x0600, 0xE9), (0x0601, 0xFF)])
      0x0602 0x80 0x00 0x00 0xFD 0xE4 [] false false false 2 = true := by decide +kernel

/-- S10: SBC $02FF,X. -/
theorem test_sbc_S10 : stepsTo (start 0x0600 0x50 0x01 0x00 0xFD 0x25 [(0x0300, 0x30), (0x0600, 0xFD), (0x0601, 0xFF), (0x0602, 0x02)])
      0x0603 0x20 0x01 0x00 0xFD 0x25 [] false false false 5 = true := by decide +kernel

/-- L3: AND #$80. -/
theorem test_and_L3 : stepsTo (start 0x0600 0xFF 0x00 0x00 0xFD 0x65 [(0x0600, 0x29), (0x0601, 0x80)])
      0x0602 0x80 0x00 0x00 0xFD 0xE5 [] false false false 2 = true := by decide +kernel

/-- L4: ORA #$80. -/
theorem test_ora_L4 : stepsTo (start 0x0600 0x01 0x00 0x00 0xFD 0x24 [(0x0600, 0x09), (0x0601, 0x80)])
      0x0602 0x81 0x00 0x00 0xFD 0xA4 [] false false false 2 = true := by decide +kernel

/-- L7: EOR #$FF. -/
theorem test_eor_L7 : stepsTo (start 0x0600 0x0F 0x00 0x00 0xFD 0x24 [(0x0600, 0x49), (0x0601, 0xFF)])
      0x0602 0xF0 0x00 0x00 0xFD 0xA4 [] false false false 2 = true := by decide +kernel

/-- L9: ORA $10,X. -/
theorem test_ora_L9 : stepsTo (start 0x0600 0x01 0xF5 0x00 0xFD 0x24 [(0x0005, 0x10), (0x0600, 0x15), (0x0601, 0x10)])
      0x0602 0x11 0xF5 0x00 0xFD 0x24 [] false false false 4 = true := by decide +kernel

/-- L11: AND $1200,Y. -/
theorem test_and_L11 : stepsTo (start 0x0600 0xFF 0x00 0x05 0xFD 0x24 [(0x0205, 0x81), (0x0600, 0x39), (0x0602, 0x12)])
      0x0603 0x81 0x00 0x05 0xFD 0xA4 [] false false false 4 = true := by decide +kernel

/-- L12: ORA ($FF,X). -/
theorem test_ora_L12 : stepsTo (start 0x0600 0x00 0x00 0x00 0xFD 0x24 [(0x0000, 0x02), (0x00FF, 0x34), (0x0234, 0x77), (0x0600, 0x01), (0x0601, 0xFF)])
      0x0602 0x77 0x00 0x00 0xFD 0x24 [] false false false 6 = true := by decide +kernel

/-- L13: EOR ($FF),Y. -/
theorem test_eor_L13 : stepsTo (start 0x0600 0xF0 0x00 0x01 0xFD 0x24 [(0x0000, 0x02), (0x00FF, 0xFF), (0x0300, 0x0F), (0x0600, 0x51), (0x0601, 0xFF)])
      0x0602 0xFF 0x00 0x01 0xFD 0xA4 [] false false false 6 = true := by decide +kernel

/-- H2: ASL A. -/
theorem test_asl_H2 : stepsTo (start 0x0600 0x40 0x00 0x00 0xFD 0x25 [(0x0600, 0x0A)])
      0x0601 0x80 0x00 0x00 0xFD 0xA4 [] false false false 2 = true := by decide +kernel

/-- H5: LSR A. -/
theorem test_lsr_H5 : stepsTo (start 0x0600 0xFF 0x00 0x00 0xFD 0xA4 [(0x0600, 0x4A)])
      0x0601 0x7F 0x00 0x00 0xFD 0x25 [] false false false 2 = true := by decide +kernel

/-- H6: ROL A. -/
theorem test_rol_H6 : stepsTo (start 0x0600 0x80 0x00 0x00 0xFD 0x25 [(0x0600, 0x2A)])
      0x0601 0x01 0x00 0x00 0xFD 0x25 [] false false false 2 = true := by decide +kernel

/-- H11: ROR A. -/
theorem test_ror_H11 : stepsTo (start 0x0600 0x03 0x00 0x00 0xFD 0x25 [(0x0600, 0x6A)])
      0x0601 0x81 0x00 0x00 0xFD 0xA5 [] false false false 2 = true := by decide +kernel

/-- H12: ASL $10. -/
theorem test_asl_H12 : stepsTo (start 0x0600 0x55 0x00 0x00 0xFD 0x24 [(0x0010, 0xC1), (0x0600, 0x06), (0x0601, 0x10)])
      0x0602 0x55 0x00 0x00 0xFD 0xA5 [(0x0010, 0x82)] false false false 5 = true := by decide +kernel

/-- H14: ROL $1234. -/
theorem test_rol_H14 : stepsTo (start 0x0600 0x00 0x00 0x00 0xFD 0x25 [(0x0234, 0x7F), (0x0600, 0x2E), (0x0601, 0x34), (0x0602, 0x12)])
      0x0603 0x00 0x00 0x00 0xFD 0xA4 [(0x1234, 0xFF)] false false false 6 = true := by decide +kernel

/-- H15: ROR $1200,X. -/
theorem test_ror_H15 : stepsTo (start 0x0600 0x00 0x34 0x00 0xFD 0x25 [(0x0600, 0x7E), (0x0602, 0x12)])
      0x0603 0x00 0x34 0x00 0xFD 0xA4 [(0x1234, 0x80)] false false false 7 = true := by decide +kernel

/-- H16: ASL $12FF,X. -/
theorem test_asl_H16 : stepsTo (start 0x0600 0x00 0x01 0x00 0xFD 0x24 [(0x0300, 0x01), (0x0600, 0x1E), (0x0601, 0xFF), (0x0602, 0x12)])
      0x0603 0x00 0x01 0x00 0xFD 0x24 [(0x1300, 0x02)] false false false 7 = true := by decide +kernel

/-- C5: CMP #$80. -/
theorem test_cmp_C5 : stepsTo (start 0x0600 0x01 0x00 0x00 0xFD 0x24 [(0x0600, 0xC9), (0x0601, 0x80)])
      0x0602 0x01 0x00 0x00 0xFD 0xA4 [] false false false 2 = true := by decide +kernel

/-- C7: CMP #$00. -/
theorem test_cmp_C7 : stepsTo (start 0x0600 0x00 0x00 0x00 0xFD 0x64 [(0x0600, 0xC9)])
      0x0602 0x00 0x00 0x00 0xFD 0x67 [] false false false 2 = true := by decide +kernel

/-- C11: CMP ($20,X). -/
theorem test_cmp_C11 : stepsTo (start 0x0600 0x05 0xE0 0x00 0xFD 0x24 [(0x0001, 0x03), (0x0300, 0x04), (0x0600, 0xC1), (0x0601, 0x20)])
      0x0602 0x05 0xE0 0x00 0xFD 0x25 [] false false false 6 = true := by decide +kernel

/-- C13: CPX #$11. -/
theorem test_cpx_C13 : stepsTo (start 0x0600 0x00 0x10 0x00 0xFD 0x24 [(0x0600, 0xE0), (0x0601, 0x11)])
      0x0602 0x00 0x10 0x00 0xFD 0xA4 [] false false false 2 = true := by decide +kernel

/-- C14: CPX $10. -/
theorem test_cpx_C14 : stepsTo (start 0x0600 0x00 0xFF 0x00 0xFD 0x24 [(0x0010, 0x01), (0x0600, 0xE4), (0x0601, 0x10)])
      0x0602 0x00 0xFF 0x00 0xFD 0xA5 [] false false false 3 = true := by decide +kernel

/-- C18: CPY $0300. -/
theorem test_cpy_C18 : stepsTo (start 0x0600 0x00 0x00 0x7F 0xFD 0x24 [(0x0300, 0x80), (0x0600, 0xCC), (0x0602, 0x03)])
      0x0603 0x00 0x00 0x7F 0xFD 0xA4 [] false false false 4 = true := by decide +kernel

/-- B1: BIT $10. -/
theorem test_bit_B1 : stepsTo (start 0x0600 0x01 0x00 0x00 0xFD 0x24 [(0x0010, 0xFE), (0x0600, 0x24), (0x0601, 0x10)])
      0x0602 0x01 0x00 0x00 0xFD 0xE6 [] false false false 3 = true := by decide +kernel

/-- B3: BIT $10. -/
theorem test_bit_B3 : stepsTo (start 0x0600 0xFF 0x00 0x00 0xFD 0xE4 [(0x0600, 0x24), (0x0601, 0x10)])
      0x0602 0xFF 0x00 0x00 0xFD 0x26 [] false false false 3 = true := by decide +kernel

/-- BR4: BEQ $05F8. -/
theorem test_beq_BR4 : stepsTo (start 0x0600 0x00 0x00 0x00 0xFD 0x26 [(0x0600, 0xF0), (0x0601, 0xF6)])
      0x05F8 0x00 0x00 0x00 0xFD 0x26 [] false false false 4 = true := by decide +kernel

/-- BR9: BCC $0700. -/
theorem test_bcc_BR9 : stepsTo (start 0x06F0 0x00 0x00 0x00 0xFD 0x24 [(0x06F0, 0x90), (0x06F1, 0x0E)])
      0x0700 0x00 0x00 0x00 0xFD 0x24 [] false false false 3 = true := by decide +kernel

/-- BR11: BCC $0702. -/
theorem test_bcc_BR11 : stepsTo (start 0x06F0 0x00 0x00 0x00 0xFD 0x25 [(0x06F0, 0x90), (0x06F1, 0x10)])
      0x06F2 0x00 0x00 0x00 0xFD 0x25 [] false false false 2 = true := by decide +kernel

/-- BR13: BCS $0582. -/
theorem test_bcs_BR13 : stepsTo (start 0x0600 0x00 0x00 0x00 0xFD 0x25 [(0x0600, 0xB0), (0x0601, 0x80)])
      0x0582 0x00 0x00 0x00 0xFD 0x25 [] false false false 4 = true := by decide +kernel

/-- BR16: BMI $0604. -/
theorem test_bmi_BR16 : stepsTo (start 0x0600 0x00 0x00 0x00 0xFD 0x24 [(0x0600, 0x30), (0x0601, 0x02)])
      0x0602 0x00 0x00 0x00 0xFD 0x24 [] false false false 2 = true := by decide +kernel

/-- BR18: BPL $0600. -/
theorem test_bpl_BR18 : stepsTo (start 0x0601 0x00 0x00 0x00 0xFD 0xA4 [(0x0601, 0x10), (0x0602, 0xFD)])
      0x0603 0x00 0x00 0x00 0xFD 0xA4 [] false false false 2 = true := by decide +kernel

/-- BR20: BVC $0607. -/
theorem test_bvc_BR20 : stepsTo (start 0x0600 0x00 0x00 0x00 0xFD 0x64 [(0x0600, 0x50), (0x0601, 0x05)])
      0x0602 0x00 0x00 0x00 0xFD 0x64 [] false false false 2 = true := by decide +kernel

/-- BR21: BVS $0607. -/
theorem test_bvs_BR21 : stepsTo (start 0x0600 0x00 0x00 0x00 0xFD 0x64 [(0x0600, 0x70), (0x0601, 0x05)])
      0x0607 0x00 0x00 0x00 0xFD 0x64 [] false false false 3 = true := by decide +kernel

/-- BR23: BNE $0071. -/
theorem test_bne_BR23 : stepsTo (start 0xFFF0 0x00 0x00 0x00 0xFD 0x24 [(0xFFF0, 0xD0), (0xFFF1, 0x7F)])
      0x0071 0x00 0x00 0x00 0xFD 0x24 [] false false false 4 = true := by decide +kernel

/-- BR25: BNE $0607. -/
theorem test_bne_BR25 : stepsTo (start 0x0600 0x00 0x00 0x00 0xFD 0x26 [(0x0600, 0xD0), (0x0601, 0x05)])
      0x0602 0x00 0x00 0x00 0xFD 0x26 [] false false false 2 = true := by decide +kernel

/-- J1: JMP $1234. -/
theorem test_jmp_J1 : stepsTo (start 0x0600 0x00 0x00 0x00 0xFD 0x24 [(0x0600, 0x4C), (0x0601, 0x34), (0x0602, 0x12)])
      0x1234 0x00 0x00 0x00 0xFD 0x24 [] false false false 3 = true := by decide +kernel

/-- J3: JMP ($02FF). -/
theorem test_jmp_J3 : stepsTo (start 0x0600 0x00 0x00 0x00 0xFD 0x24 [(0x0200, 0x12), (0x02FF, 0x34), (0x0300, 0x99), (0x0600, 0x6C), (0x0601, 0xFF), (0x0602, 0x02)])
      0x1234 0x00 0x00 0x00 0xFD 0x24 [] false false false 5 = true := by decide +kernel

/-- K2: PHA. -/
theorem test_pha_K2 : stepsTo (start 0x0600 0x42 0x00 0x00 0x00 0x24 [(0x0600, 0x48)])
      0x0601 0x42 0x00 0x00 0xFF 0x24 [(0x0100, 0x42), (0x0900, 0x42)] false false false 3 = true := by decide +kernel

/-- K5: PLA. -/
theorem test_pla_K5 : stepsTo (start 0x0600 0x00 0x00 0x00 0xFF 0x24 [(0x0100, 0x7E), (0x0600, 0x68)])
      0x0601 0x7E 0x00 0x00 0x00 0x24 [] false false false 4 = true := by decide +kernel

/-- K7: PHP. -/
theorem test_php_K7 : stepsTo (start 0x0600 0x00 0x00 0x00 0xFD 0xC3 [(0x0600, 0x08)])
      0x0601 0x00 0x00 0x00 0xFC 0xF3 [(0x01FD, 0xF3)] false false false 3 = true := by decide +kernel

/-- K10: PLP. -/
theorem test_plp_K10 : stepsTo (start 0x0600 0x00 0x00 0x00 0xFC 0xFF [(0x0600, 0x28)])
      0x0601 0x00 0x00 0x00 0xFD 0x20 [] false false false 4 = true := by decide +kernel

/-- K11: PLP. -/
theorem test_plp_K11 : stepsTo (start 0x0600 0x00 0x00 0x00 0xFC 0x24 [(0x01FD, 0xCF), (0x0600, 0x28)])
      0x0601 0x00 0x00 0x00 0xFD 0xEF [] false false false 4 = true := by decide +kernel

/-- K13: JSR $0609. -/
theorem test_jsr_K13 : stepsTo (start 0x0606 0x00 0x00 0x00 0xFD 0x24 [(0x0606, 0x20), (0x0607, 0x09), (0x0608, 0x06)])
      0x0609 0x00 0x00 0x00 0xFB 0x24 [(0x01FC, 0x08), (0x01FD, 0x06)] false false false 6 = true := by decide +kernel

/-- K15: JSR $1234. -/
theorem test_jsr_K15 : stepsTo (start 0x0600 0x00 0x00 0x00 0x00 0x24 [(0x0600, 0x20), (0x0601, 0x34), (0x0602, 0x12)])
      0x1234 0x00 0x00 0x00 0xFE 0x24 [(0x0100, 0x06), (0x01FF, 0x02)] false false false 6 = true := by decide +kernel

/-- K17: RTS. -/
theorem test_rts_K17 : stepsTo (start 0x0600 0x00 0x00 0x00 0xFB 0x24 [(0x01FC, 0xFF), (0x01FD, 0xFF), (0x0600, 0x60)])
      0x0000 0x00 0x00 0x00 0xFD 0x24 [] false false false 6 = true := by decide +kernel

/-- K18: RTS. -/
theorem test_rts_K18 : stepsTo (start 0x0600 0x00 0x00 0x00 0xFF 0x24 [(0x0100, 0x33), (0x0101, 0x12), (0x0600, 0x60)])
      0x1234 0x00 0x00 0x00 0x01 0x24 [] false false false 6 = true := by decide +kernel

/-- K19: RTI. -/
theorem test_rti_K19 : stepsTo (start 0x0600 0x00 0x00 0x00 0xFA 0x24 [(0x01FB, 0xC3), (0x01FC, 0x34), (0x01FD, 0x12), (0x0600, 0x40)])
      0x1234 0x00 0x00 0x00 0xFD 0xE3 [] false false false 6 = true := by decide +kernel

/-- K21: RTI. -/
theorem test_rti_K21 : stepsTo (start 0x0600 0x00 0x00 0x00 0xFE 0x24 [(0x0100, 0x02), (0x0101, 0x03), (0x01FF, 0x01), (0x0600, 0x40)])
      0x0302 0x00 0x00 0x00 0x01 0x21 [] false false false 6 = true := by decide +kernel

/-- K22: BRK; padding $EA. -/
theorem test_brk_K22 : stepsTo (start 0x0600 0x00 0x00 0x00 0xFD 0x20 [(0x0601, 0xEA), (0xFFFF, 0x90)])
      0x9000 0x00 0x00 0x00 0xFA 0x34 [(0x01FB, 0x30), (0x01FC, 0x02), (0x01FD, 0x06)] false false false 7 = true := by decide +kernel

/-- T2: TAX. -/
theorem test_tax_T2 : stepsTo (start 0x0600 0x00 0x55 0x00 0xFD 0x24 [(0x0600, 0xAA)])
      0x0601 0x00 0x00 0x00 0xFD 0x26 [] false false false 2 = true := by decide +kernel

/-- T4: TAY. -/
theorem test_tay_T4 : stepsTo (start 0x0600 0x00 0x00 0x01 0xFD 0xA4 [(0x0600, 0xA8)])
      0x0601 0x00 0x00 0x00 0xFD 0x26 [] false false false 2 = true := by decide +kernel

/-- T6: TXA. -/
theorem test_txa_T6 : stepsTo (start 0x0600 0x11 0x00 0x00 0xFD 0x24 [(0x0600, 0x8A)])
      0x0601 0x00 0x00 0x00 0xFD 0x26 [] false false false 2 = true := by decide +kernel

/-- T7: TYA. -/
theorem test_tya_T7 : stepsTo (start 0x0600 0x00 0x00 0x01 0xFD 0xA6 [(0x0600, 0x98)])
      0x0601 0x01 0x00 0x01 0xFD 0x24 [] false false false 2 = true := by decide +kernel

/-- T9: TSX. -/
theorem test_tsx_T9 : stepsTo (start 0x0600 0x00 0x00 0x00 0xFD 0x24 [(0x0600, 0xBA)])
      0x0601 0x00 0xFD 0x00 0xFD 0xA4 [] false false false 2 = true := by decide +kernel

/-- T10: TSX. -/
theorem test_tsx_T10 : stepsTo (start 0x0600 0x00 0x55 0x00 0x00 0x24 [(0x0600, 0xBA)])
      0x0601 0x00 0x00 0x00 0x00 0x26 [] false false false 2 = true := by decide +kernel

/-- T13: TXS. -/
theorem test_txs_T13 : stepsTo (start 0x0600 0x00 0x80 0x00 0xFD 0x26 [(0x0600, 0x9A)])
      0x0601 0x00 0x80 0x00 0x80 0x26 [] false false false 2 = true := by decide +kernel

/-- T14: TXS. -/
theorem test_txs_T14 : stepsTo (start 0x0600 0x00 0xFF 0x00 0x10 0x24 [(0x0600, 0x9A)])
      0x0601 0x00 0xFF 0x00 0xFF 0x24 [] false false false 2 = true := by decide +kernel

/-- M1: LDA #$00. -/
theorem test_lda_M1 : stepsTo (start 0x0600 0x55 0x00 0x00 0xFD 0x24 [(0x0600, 0xA9)])
      0x0602 0x00 0x00 0x00 0xFD 0x26 [] false false false 2 = true := by decide +kernel

/-- M4: LDA $F0,X. -/
theorem test_lda_M4 : stepsTo (start 0x0600 0x00 0x20 0x00 0xFD 0x24 [(0x0010, 0x11), (0x0110, 0x99), (0x0600, 0xB5), (0x0601, 0xF0)])
      0x0602 0x11 0x20 0x00 0xFD 0x24 [] false false false 4 = true := by decide +kernel

/-- M6: LDA $1F10. -/
theorem test_lda_M6 : stepsTo (start 0x0600 0x00 0x00 0x00 0xFD 0x24 [(0x0600, 0xAD), (0x0601, 0x10), (0x0602, 0x1F), (0x0710, 0x23)])
      0x0603 0x23 0x00 0x00 0xFD 0x24 [] false false false 4 = true := by decide +kernel

/-- M8: LDA $1200,X. -/
theorem test_lda_M8 : stepsTo (start 0x0600 0x00 0xFF 0x00 0xFD 0x24 [(0x02FF, 0x34), (0x0600, 0xBD), (0x0602, 0x12)])
      0x0603 0x34 0xFF 0x00 0xFD 0x24 [] false false false 4 = true := by decide +kernel

/-- M10: LDA ($FE,X). -/
theorem test_lda_M10 : stepsTo (start 0x0600 0x00 0x01 0x00 0xFD 0x24 [(0x0000, 0x12), (0x00FF, 0x34), (0x0234, 0x44), (0x0600, 0xA1), (0x0601, 0xFE)])
      0x0602 0x44 0x01 0x00 0xFD 0x24 [] false false false 6 = true := by decide +kernel

/-- M13: LDA ($FF),Y. -/
theorem test_lda_M13 : stepsTo (start 0x0600 0x00 0x00 0x02 0xFD 0x24 [(0x0000, 0x03), (0x00FF, 0x10), (0x0312, 0x47), (0x0600, 0xB1), (0x0601, 0xFF)])
      0x0602 0x47 0x00 0x02 0xFD 0x24 [] false false false 5 = true := by decide +kernel

/-- M14: LDA $FFFF,X. -/
theorem test_lda_M14 : stepsTo (start 0x0600 0x00 0x01 0x00 0xFD 0x24 [(0x0000, 0x48), (0x0600, 0xBD), (0x0601, 0xFF), (0x0602, 0xFF)])
      0x0603 0x48 0x01 0x00 0xFD 0x24 [] false false false 5 = true := by decide +kernel

/-- M16: LDX #$FF. -/
theorem test_ldx_M16 : stepsTo (start 0x0600 0x00 0x00 0x00 0xFD 0x24 [(0x0600, 0xA2), (0x0601, 0xFF)])
      0x0602 0x00 0xFF 0x00 0xFD 0xA4 [] false false false 2 = true := by decide +kernel

/-- M18: LDX $FF,Y. -/
theorem test_ldx_M18 : stepsTo (start 0x0600 0x00 0x00 0x01 0xFD 0x24 [(0x0000, 0x51), (0x0600, 0xB6), (0x0601, 0xFF)])
      0x0602 0x00 0x51 0x01 0xFD 0x24 [] false false false 4 = true := by decide +kernel

/-- M20: LDX $1280,Y. -/
theorem test_ldx_M20 : stepsTo (start 0x0600 0x00 0x00 0x80 0xFD 0x24 [(0x0300, 0x53), (0x0600, 0xBE), (0x0601, 0x80), (0x0602, 0x12)])
      0x0603 0x00 0x53 0x80 0xFD 0x24 [] false false false 5 = true := by decide +kernel

/-- M22: LDY #$01. -/
theorem test_ldy_M22 : stepsTo (start 0x0600 0x00 0x00 0x00 0xFD 0x24 [(0x0600, 0xA0), (0x0601, 0x01)])
      0x0602 0x00 0x00 0x01 0xFD 0x24 [] false false false 2 = true := by decide +kernel

/-- M24: LDY $10,X. -/
theorem test_ldy_M24 : stepsTo (start 0x0600 0x00 0x05 0x00 0xFD 0x24 [(0x0015, 0x61), (0x0600, 0xB4), (0x0601, 0x10)])
      0x0602 0x00 0x05 0x61 0xFD 0x24 [] false false false 4 = true := by decide +kernel

/-- M27: LDY $12FF,X. -/
theorem test_ldy_M27 : stepsTo (start 0x0600 0x00 0x01 0x00 0xFD 0x24 [(0x0300, 0x64), (0x0600, 0xBC), (0x0601, 0xFF), (0x0602, 0x12)])
      0x0603 0x00 0x01 0x64 0xFD 0x24 [] false false false 5 = true := by decide +kernel

/-- W1: STA $10. -/
theorem test_sta_W1 : stepsTo (start 0x0600 0x99 0x00 0x00 0xFD 0x26 [(0x0600, 0x85), (0x0601, 0x10)])
      0x0602 0x99 0x00 0x00 0xFD 0x26 [(0x0010, 0x99), (0x0810, 0x99), (0x1010, 0x99), (0x1810, 0x99)] false false false 3 = true := by decide +kernel

/-- W3: STA $F0,X. -/
theorem test_sta_W3 : stepsTo (start 0x0600 0x12 0x20 0x00 0xFD 0x24 [(0x0600, 0x95), (0x0601, 0xF0)])
      0x0602 0x12 0x20 0x00 0xFD 0x24 [(0x0010, 0x12), (0x0110, 0x00)] false false false 4 = true := by decide +kernel

/-- W5: STA $03FF,X. -/
theorem test_sta_W5 : stepsTo (start 0x0600 0x14 0x01 0x00 0xFD 0x24 [(0x0600, 0x9D), (0x0601, 0xFF), (0x0602, 0x03)])
      0x0603 0x14 0x01 0x00 0xFD 0x24 [(0x0400, 0x14)] false false false 5 = true := by decide +kernel

/-- W8: STA ($20),Y. -/
theorem test_sta_W8 : stepsTo (start 0x0600 0x17 0x00 0x10 0xFD 0x24 [(0x0020, 0xF8), (0x0021, 0x02), (0x0600, 0x91), (0x0601, 0x20)])
      0x0602 0x17 0x00 0x10 0xFD 0x24 [(0x0308, 0x17)] false false false 6 = true := by decide +kernel

/-- W11: STA $FFFC. -/
theorem test_sta_W11 : stepsTo (start 0x0600 0x1A 0x00 0x00 0xFD 0x24 [(0x0600, 0x8D), (0x0601, 0xFC), (0x0602, 0xFF)])
      0x0603 0x1A 0x00 0x00 0xFD 0x24 [(0xFFFC, 0x1A)] false false false 4 = true := by decide +kernel

/-- W14: STX $FF,Y. -/
theorem test_stx_W14 : stepsTo (start 0x0600 0x00 0x21 0x02 0xFD 0x24 [(0x0600, 0x96), (0x0601, 0xFF)])
      0x0602 0x00 0x21 0x02 0xFD 0x24 [(0x0001, 0x21), (0x0101, 0x00)] false false false 4 = true := by decide +kernel

/-- W17: STY $10,X. -/
theorem test_sty_W17 : stepsTo (start 0x0600 0x00 0x01 0x31 0xFD 0x24 [(0x0600, 0x94), (0x0601, 0x10)])
      0x0602 0x00 0x01 0x31 0xFD 0x24 [(0x0011, 0x31)] false false false 4 = true := by decide +kernel

/-- W19: STA $0602. -/
theorem test_sta_W19 : stepsTo (start 0x0600 0xEA 0x00 0x00 0xFD 0x24 [(0x0600, 0x8D), (0x0601, 0x02), (0x0602, 0x06)])
      0x0603 0xEA 0x00 0x00 0xFD 0x24 [(0x0602, 0xEA)] false false false 4 = true := by decide +kernel

/-- I2: INC $10. -/
theorem test_inc_I2 : stepsTo (start 0x0600 0x00 0x00 0x00 0xFD 0x65 [(0x0010, 0x7F), (0x0600, 0xE6), (0x0601, 0x10)])
      0x0602 0x00 0x00 0x00 0xFD 0xE5 [(0x0010, 0x80)] false false false 5 = true := by decide +kernel

/-- I5: INC $02FF,X. -/
theorem test_inc_I5 : stepsTo (start 0x0600 0x00 0x01 0x00 0xFD 0x24 [(0x0300, 0x41), (0x0600, 0xFE), (0x0601, 0xFF), (0x0602, 0x02)])
      0x0603 0x00 0x01 0x00 0xFD 0x24 [(0x0300, 0x42)] false false false 7 = true := by decide +kernel

/-- I6: DEC $10. -/
theorem test_dec_I6 : stepsTo (start 0x0600 0x00 0x00 0x00 0xFD 0x24 [(0x0600, 0xC6), (0x0601, 0x10)])
      0x0602 0x00 0x00 0x00 0xFD 0xA4 [(0x0010, 0xFF)] false false false 5 = true := by decide +kernel

/-- I10: DEC $0300,X. -/
theorem test_dec_I10 : stepsTo (start 0x0600 0x00 0x01 0x00 0xFD 0x24 [(0x0301, 0x41), (0x0600, 0xDE), (0x0602, 0x03)])
      0x0603 0x00 0x01 0x00 0xFD 0x24 [(0x0301, 0x40)] false false false 7 = true := by decide +kernel

/-- I12: INX. -/
theorem test_inx_I12 : stepsTo (start 0x0600 0x00 0x7F 0x00 0xFD 0x24 [(0x0600, 0xE8)])
      0x0601 0x00 0x80 0x00 0xFD 0xA4 [] false false false 2 = true := by decide +kernel

/-- I13: INY. -/
theorem test_iny_I13 : stepsTo (start 0x0600 0x00 0x00 0xFF 0xFD 0x24 [(0x0600, 0xC8)])
      0x0601 0x00 0x00 0x00 0xFD 0x26 [] false false false 2 = true := by decide +kernel

/-- I15: DEX. -/
theorem test_dex_I15 : stepsTo (start 0x0600 0x00 0x00 0x00 0xFD 0x24 [(0x0600, 0xCA)])
      0x0601 0x00 0xFF 0x00 0xFD 0xA4 [] false false false 2 = true := by decide +kernel

/-- I16: DEX. -/
theorem test_dex_I16 : stepsTo (start 0x0600 0x00 0x01 0x00 0xFD 0x24 [(0x0600, 0xCA)])
      0x0601 0x00 0x00 0x00 0xFD 0x26 [] false false false 2 = true := by decide +kernel

/-- I17: DEY. -/
theorem test_dey_I17 : stepsTo (start 0x0600 0x00 0x00 0x00 0xFD 0x24 [(0x0600, 0x88)])
      0x0601 0x00 0x00 0xFF 0xFD 0xA4 [] false false false 2 = true := by decide +kernel

/-- I18: DEY. -/
theorem test_dey_I18 : stepsTo (start 0x0600 0x00 0x00 0x81 0xFD 0x27 [(0x0600, 0x88)])
      0x0601 0x00 0x00 0x80 0xFD 0xA5 [] false false false 2 = true := by decide +kernel

/-- F1: CLC. -/
theorem test_clc_F1 : stepsTo (start 0x0600 0x00 0x00 0x00 0xFD 0xFF [(0x0600, 0x18)])
      0x0601 0x00 0x00 0x00 0xFD 0xFE [] false false false 2 = true := by decide +kernel

/-- F2: SEC. -/
theorem test_sec_F2 : stepsTo (start 0x0600 0x00 0x00 0x00 0xFD 0x20 [(0x0600, 0x38)])
      0x0601 0x00 0x00 0x00 0xFD 0x21 [] false false false 2 = true := by decide +kernel

/-- F3: CLI. -/
theorem test_cli_F3 : stepsTo (start 0x0600 0x00 0x00 0x00 0xFD 0xFF [(0x0600, 0x58)])
      0x0601 0x00 0x00 0x00 0xFD 0xFB [] false false false 2 = true := by decide +kernel

/-- F4: SEI. -/
theorem test_sei_F4 : stepsTo (start 0x0600 0x00 0x00 0x00 0xFD 0x20 [(0x0600, 0x78)])
      0x0601 0x00 0x00 0x00 0xFD 0x24 [] false false false 2 = true := by decide +kernel

/-- F5: CLD. -/
theorem test_cld_F5 : stepsTo (start 0x0600 0x00 0x00 0x00 0xFD 0xFF [(0x0600, 0xD8)])
      0x0601 0x00 0x00 0x00 0xFD 0xF7 [] false false false 2 = true := by decide +kernel

/-- F6: SED. -/
theorem test_sed_F6 : stepsTo (start 0x0600 0x00 0x00 0x00 0xFD 0x20 [(0x0600, 0xF8)])
      0x0601 0x00 0x00 0x00 0xFD 0x28 [] false false false 2 = true := by decide +kernel

/-- F7: CLV. -/
theorem test_clv_F7 : stepsTo (start 0x0600 0x00 0x00 0x00 0xFD 0xFF [(0x0600, 0xB8)])
      0x0601 0x00 0x00 0x00 0xFD 0xBF [] false false false 2 = true := by decide +kernel

/-- F9: NOP. -/
theorem test_nop_F9 : stepsTo (start 0xFFFF 0x00 0x00 0x00 0xFD 0x24 [(0xFFFF, 0xEA)])
      0x0000 0x00 0x00 0x00 0xFD 0x24 [] false false false 2 = true := by decide +kernel

/-- N1: NOP. -/
theorem test_nop_N1 : stepsTo { start 0x0600 0x00 0x00 0x00 0xFD 0xE7 [(0x0600, 0xEA), (0xFFFB, 0x90), (0xFFFD, 0x80), (0xFFFF, 0xA0)] with pendNMI := true }
      0x9000 0x00 0x00 0x00 0xFA 0xE7 [(0x01FB, 0xE7), (0x01FC, 0x01), (0x01FD, 0x06)] false false false 9 = true := by decide +kernel

/-- N20: NOP. -/
theorem test_nop_N20 : stepsTo { start 0x0600 0x00 0x00 0x00 0xFD 0x30 [(0x0600, 0xEA), (0xFFFB, 0x90), (0xFFFD, 0x80), (0xFFFF, 0xA0)] with pendIRQ := true }
      0xA000 0x00 0x00 0x00 0xFA 0x24 [(0x01FB, 0x20), (0x01FC, 0x01), (0x01FD, 0x06)] false false false 9 = true := by decide +kernel

/-- N4: CLI. -/
theorem test_cli_N4 : stepsTo { start 0x0600 0x00 0x00 0x00 0xFD 0x24 [(0x0600, 0x58), (0xFFFB, 0x90), (0xFFFD, 0x80), (0xFFFF, 0xA0)] with pendIRQ := true }
      0xA000 0x00 0x00 0x00 0xFA 0x24 [(0x01FB, 0x20), (0x01FC, 0x01), (0x01FD, 0x06)] false false false 9 = true := by decide +kernel

/-- N6: NOP. -/
theorem test_nop_N6 : stepsTo { start 0x0600 0x11 0x22 0x33 0x44 0x20 [(0x0600, 0xEA), (0xFFFB, 0x90), (0xFFFD, 0x80), (0xFFFF, 0xA0)] with pendReset := true }
      0x8000 0x11 0x22 0x33 0x44 0x24 [] false false false 9 = true := by decide +kernel

/-- N10: BRK; padding $EA. -/
theorem test_brk_N10 : stepsTo { start 0x0600 0x00 0x00 0x00 0xFD 0x20 [(0x0601, 0xEA), (0xFFFB, 0x90), (0xFFFD, 0x80), (0xFFFF, 0xA0)] with pendNMI := true }
      0x9000 0x00 0x00 0x00 0xF7 0x24 [(0x01F8, 0x24), (0x01F9, 0x00), (0x01FA, 0xA0), (0x01FB, 0x30), (0x01FC, 0x02), (0x01FD, 0x06)] false false false 14 = true := by decide +kernel

/-- N13: RTI. -/
theorem test_rti_N13 : stepsTo { start 0x0600 0x00 0x00 0x00 0xFA 0x24 [(0x01FB, 0x20), (0x01FC, 0x34), (0x01FD, 0x12), (0x0600, 0x40), (0xFFFB, 0x90), (0xFFFD, 0x80), (0xFFFF, 0xA0)] with pendIRQ := true }
      0xA000 0x00 0x00 0x00 0xFA 0x24 [(0x01FB, 0x20), (0x01FC, 0x34), (0x01FD, 0x12)] false false false 13 = true := by decide +kernel

/-- N14: PLP. -/
theorem test_plp_N14 : stepsTo { start 0x0600 0x00 0x00 0x00 0xFC 0x24 [(0x0600, 0x28), (0xFFFB, 0x90), (0xFFFD, 0x80), (0xFFFF, 0xA0)] with pendIRQ := true }
      0xA000 0x00 0x00 0x00 0xFA 0x24 [(0x01FB, 0x20), (0x01FC, 0x01), (0x01FD, 0x06)] false false false 11 = true := by decide +kernel

/-- N5: SEI. -/
theorem test_sei_N5 : stepsTo { start 0x0600 0x00 0x00 0x00 0xFD 0x20 [(0x0600, 0x78), (0xFFFB, 0x90), (0xFFFD, 0x80), (0xFFFF, 0xA0)] with pendIRQ := true }
      0x0601 0x00 0x00 0x00 0xFD 0x24 [] false false true 2 = true := by decide +kernel

/-! ## Faults, the window, the DMA, the fetch -/

/-- X1, N18: $FF at PC raises `InvalidOpcode`, with no cycle count. -/
theorem test_invalid_opcode_X1 :
    (match step (start 0x0600 0x12 0x34 0x56 0xFD 0xE3 [(0x0600, 0xFF)]) with
      | .fault (.invalidOpcode pc b) => pc == 0x0600 && b == 0xFF
      | _ => false) = true ∧
    stepCycles (start 0x0600 0x12 0x34 0x56 0xFD 0xE3 [(0x0600, 0xFF)]) = none := by decide +kernel

/-- The forwarded accesses of one step, the first one first. -/
def accessesOf (s : State) : List PeriphEvent :=
  match step s with
  | .next t => t.ps.history.reverse
  | _ => []

/-- V3: STA $2000 is one device write, and storage is untouched. -/
theorem test_sta_window_V3 :
    accessesOf (start 0x0600 0x90 0 0 0xFD 0x24 [(0x0600, 0x8D), (0x0601, 0x00), (0x0602, 0x20)]) =
      [.write 0x2000 0x90] := by decide +kernel

/-- V7: the discarded fetch of a NOP at $1FFF is a device read. -/
theorem test_discarded_fetch_V7 : accessesOf (start 0x1FFF 0 0 0 0xFD 0x24 [(0x07FF, 0xEA)]) = [.read 0x2000] := by
  decide +kernel

/-- V8: $2008 is plain storage. -/
theorem test_lda_2008_V8 :
    stepsTo (start 0x0600 0 0 0 0xFD 0x24 [(0x0600, 0xAD), (0x0601, 0x08), (0x0602, 0x20), (0x2008, 0x5A)])
      0x0603 0x5A 0 0 0xFD 0x24 [] false false false 4 = true := by decide +kernel

/-- V11: LDA $1FF8,X with X = $0A makes one device read, at the final address, and costs 5 cycles. -/
theorem test_lda_indexed_into_window_V11 :
    accessesOf (start 0x0600 0 0x0A 0 0xFD 0x24 [(0x0600, 0xBD), (0x0601, 0xF8), (0x0602, 0x1F)]) = [.read 0x2002] ∧
    stepCycles (start 0x0600 0 0x0A 0 0xFD 0x24 [(0x0600, 0xBD), (0x0601, 0xF8), (0x0602, 0x1F)]) = some 5 := by
  decide +kernel

/-- V6: INC $2002 is one read and then one write. -/
theorem test_inc_window_V6 :
    (match accessesOf (start 0x0600 0 0 0 0xFD 0x24 [(0x0600, 0xEE), (0x0601, 0x02), (0x0602, 0x20)]) with
      | [.read a, .write b _] => a == 0x2002 && b == 0x2002
      | _ => false) = true := by decide +kernel

/-- A DMA of a page whose first, second and last byte are 11, 22, FF, into a device whose OAM address is $80. -/
def dmaState (page : Byte) : State :=
  { start 0x0600 page 0 0 0xFD 0x24
      [(0x0200, 0x11), (0x0201, 0x22), (0x02FF, 0xFF), (0x0600, 0x8D), (0x0601, 0x14), (0x0602, 0x40)] with
    ps := { Periph.initial with oamAddr := 0x80 } }

/-- What OAM holds at 0, 1, 2, $80 and 255 after the step. -/
def dmaResult (s : State) : List Byte :=
  match step s with
  | .next t => [t.ps.oam[0], t.ps.oam[1], t.ps.oam[2], t.ps.oam[0x80], t.ps.oam[255]]
  | _ => []

/-- V4: STA $4014 with A = 2 copies page 2 from OAM index 0 on. -/
theorem test_oam_dma_V4 : dmaResult (dmaState 0x02) = [0x11, 0x22, 0, 0, 0xFF] := by decide +kernel

/-- V5: page $0A is read through the RAM mirror. -/
theorem test_oam_dma_mirror_V5 : dmaResult (dmaState 0x0A) = [0x11, 0x22, 0, 0, 0xFF] := by decide +kernel

/-- The first instruction after reset, placed where the step fetches it: LDA #$01. -/
theorem test_withFetchWord :
    (match step (State.reset.withFetchWord 16 0x01A9) with
      | .next t => t.A == 1 && t.PC == State.reset.PC + 2
      | _ => false) = true := by decide +kernel

/-- Power-on (R54, R380): SP = $FD, only I set, PC from $FFFC. -/
theorem test_power_on :
    (let s := powerOn [(0xFFFC, 0x34), (0xFFFD, 0x80)] Periph.initial
     (s.PC, s.SP, packFlags s)) = (0x8034, 0xFD, 0x24) := by decide +kernel

/-- R89: `loadWord` gives the low byte first; the high byte of $FFFF is at $0000. -/
theorem test_host_load_word :
    (match hostLoadWord 0xFFFF (start 0 0 0 0 0xFD 0x24 [(0x0000, 0x12), (0xFFFF, 0x34)]) with
      | .next ((lo, hi), _) => lo == 0x34 && hi == 0x12
      | _ => false) = true := by decide +kernel

/-! ## Witnesses: concrete states and operands that meet the hypotheses of each statement -/

/-- The outcome is a next state with the property. -/
def nextWith {α : Type} (p : α → Bool) : Host.Outcome α Fault Refusal → Bool
  | .next t => p t
  | _ => false

/-- A small program at $0600, with a stack, vectors and data below it. -/
def sample (code : List Byte) : State :=
  start 0x0600 0x11 0x22 0x33 0xFD 0xE3
    ([(0x0010, 0x34), (0x0011, 0x03), (0xFFFB, 0x90), (0xFFFD, 0x80), (0xFFFF, 0xA0)] ++
      code.mapIdx (fun k b => (0x0600 + k, b)))

theorem witness_EncodeOfDecode : decode [0xA9, 0x10, 0xFF] = some (.ldaImm 0x10, [0xFF]) := by decide

theorem witness_EmptySlotsFault :
    (memRead (sample [0xFF]).PC (sample [0xFF])).1.toNat ∈ emptyOpcodes ∧
      (memRead (sample [0xEA]).PC (sample [0xEA])).1.toNat ∉ emptyOpcodes := by decide +kernel

/-- The three bytes read in order from PC on, each in the state the read before it left. -/
def bytesAtPC (s : State) : List Byte :=
  let r0 := memRead s.PC s
  let r1 := memRead (s.PC + 1) r0.2
  [r0.1, r1.1, (memRead (s.PC + 2) r1.2).1]

/-- A form of each length: TAX, whose next byte is read and discarded, LDA immediate, LDA absolute. -/
theorem witness_StepRunsDecodedInstruction :
    decode (bytesAtPC (sample [0xAA, 0x34, 0x12])) = some (.tax, [0x34, 0x12]) ∧
      decode (bytesAtPC (sample [0xA9, 0x34, 0x12])) = some (.ldaImm 0x34, [0x12]) ∧
      decode (bytesAtPC (sample [0xAD, 0x34, 0x12])) = some (.ldaAbs 0x1234, []) := by decide +kernel

/-- NOP is listed for no register and no flag. -/
theorem witness_InstructionsCompleteAndKeepRegisters :
    Instr.nop.slot?.map Slot.mnemonic = some .nop ∧ Instr.nop.slot?.map Slot.mode = some .imp ∧
      ∀ l ∈ [writesA, writesX, writesY, writesSP, writesC, writesZN, writesV, writesI, writesD, writesB],
        Mnemonic.nop ∉ l := by decide

/-- STA $10: the next cell is not stored to, a mirror of $10 is the same cell; a store to the window stores nothing. -/
theorem witness_InstructionsKeepOtherStorage :
    storedTo (.staZp 0x10) (sample []) = [0x0010] ∧ phys 0x0011 ≠ phys 0x0010 ∧ phys 0x0810 = phys 0x0010 ∧
      storedTo (.staAbs 0x2007) (sample []) = [] ∧ storedTo (.staAbs 0x2008) (sample []) = [0x2008] := by decide +kernel

/-- The addresses at the edges of the window. -/
theorem witness_DeviceChangesOnlyThroughTheWindow :
    ([0x1FFF#16, 0x2008#16, 0x4013#16, 0x4015#16].all
        (fun a => accessed (.ldaAbs a) (sample []) == [a] && !inWindow a)) = true ∧
      [0x2000#16, 0x2007#16, 0x4014#16].all inWindow = true := by decide +kernel

theorem witness_InvalidOpcodeIsTheOnlyFault :
    AtInvalidOpcode (sample [0xFF]) ∧ inWindow (sample [0xFF]).PC = false := by
  unfold AtInvalidOpcode
  decide +kernel

theorem witness_StepKeepsStorageCanonical :
    StorageCanonical (sample [0x85, 0x12]) ∧ nextWith (fun _ => true) (step (sample [0x85, 0x12])) = true := by
  unfold StorageCanonical
  decide +kernel

theorem witness_PowerOnStorageCanonical : Memory.wf [(0, 1), (0x07FF, 2), (0x2008, 3), (0xFFFF, 4)] = true := by decide

/-- A cell below the banks; there is none above. -/
theorem witness_LoaderPlacesBanks : (0x7FFF < 0x8000 ∨ 0x10000 ≤ 0x7FFF) ∧ (0x10000 < 0x8000 ∨ 0x10000 ≤ 0x10000) := by
  decide

/-- The same cell, and another one. -/
theorem witness_StorageReadAfterWrite :
    (inWindow 0x1FFF = false ∧ inWindow 0x07FF = false ∧ phys 0x07FF = phys 0x1FFF) ∧
      (inWindow 0x2008 = false ∧ phys 0x2008 ≠ phys 0x1FFF) := by decide

/-- The last address of the RAM, an address above it, a neighbour in it. -/
theorem witness_RamIsMirroredFourTimes :
    (0x1FFF#16).toNat < 0x2000 ∧ (inWindow 0x2008 = false ∧ 0x2000 ≤ (0x2008#16).toNat) ∧
      (inWindow 0x07FE = false ∧ (0x07FE#16).toNat % 0x800 ≠ (0x1FFF#16).toNat % 0x800) := by decide

theorem witness_WindowAccessKeepsCore :
    inWindow 0x2000 = true ∧ inWindow 0x2007 = true ∧ inWindow 0x4014 = true ∧ (0x2007#16).toNat ≠ 0x4014 := by decide

/-- CMP, CPX, CPY and SBC of the same immediate. -/
theorem witness_CompareIsSbcFlags :
    (∃ f ∈ cmpForms 0x05 0, ∃ f' ∈ sbcForms 0x05 0, f.operand = f'.operand) ∧
      (∃ f ∈ cpxForms 0x05 0, ∃ f' ∈ sbcForms 0x05 0, f.operand = f'.operand) ∧
      (∃ f ∈ cpyForms 0x05 0, ∃ f' ∈ sbcForms 0x05 0, f.operand = f'.operand) :=
  ⟨⟨_, .head _, _, .head _, rfl⟩, ⟨_, .head _, _, .head _, rfl⟩, ⟨_, .head _, _, .head _, rfl⟩⟩

/-- The state a JSR leaves, with the stack pointer at its wrap. -/
theorem witness_JsrRtsRoundTrip :
    nextWith (fun u => u.SP == 0xFE && peek u (stackCell 0x00) == 0x06 && peek u (stackCell 0xFF) == 0x02)
      (exec (.jsr 0x1234) { sample [] with SP := 0x00 }) = true := by decide +kernel

/-- The states that BRK, NMI service and IRQ service leave, each taken as the state of the RTI too. -/
theorem witness_RtiUndoesEntry :
    let s := sample []
    nextWith (fun t => t.SP == 0xFA) (exec .brk s) = true ∧ pcAfter 2 s = 0x0602 ∧
      (service .nmi s).SP = 0xFA ∧ (service .irq s).SP = 0xFA := by decide +kernel

theorem witness_DecimalFlagIsInert : Instr.adcImm 0x09 ≠ .php ∧ Instr.adcImm 0x09 ≠ .brk := by decide

/-- One state for each of the four clauses. -/
theorem witness_BoundaryServesByPriority :
    let s := sample []
    ({ s with pendReset := true, pendNMI := true, pendIRQ := true }.pendReset = true) ∧
      (let n := { s with pendNMI := true, pendIRQ := true }; n.pendReset = false ∧ n.pendNMI = true) ∧
      (let q := { s with pendIRQ := true, I := false }
       q.pendReset = false ∧ q.pendNMI = false ∧ q.pendIRQ = true ∧ q.I = false) ∧
      (let m := { s with pendIRQ := true, I := true }
       m.pendReset = false ∧ m.pendNMI = false ∧ (m.pendIRQ = false ∨ m.I = true)) := by decide +kernel

theorem witness_CliLetsPendingIrqIn :
    let s := { sample [0x58] with pendIRQ := true, I := true }
    fetchesStorage s.PC = true ∧ peek s s.PC = 0x58 ∧ s.pendReset = false ∧ s.pendNMI = false ∧ s.pendIRQ = true := by
  decide +kernel

/-- Both sides of both bounds. -/
theorem witness_HostCallsCheckTheAddress :
    ((-1 : Int) < 0 ∨ 65535 < (-1 : Int)) ∧ ((65536 : Int) < 0 ∨ 65535 < (65536 : Int)) ∧
      (0 ≤ (0 : Int) ∧ (0 : Int) ≤ 65535) ∧ (0 ≤ (65535 : Int) ∧ (65535 : Int) ≤ 65535) := by decide

/-- The smallest and the largest count: a NOP, and a BRK with an NMI. -/
theorem witness_StepCostsTwoToFourteen :
    stepCycles (sample [0xEA]) = some 2 ∧ stepCycles { sample [0x00] with pendNMI := true } = some 14 := by decide +kernel

theorem witness_CyclesOfAStep :
    nextWith (fun r => r.1 == .adcImm 0x01 && nextWith (fun _ => true) (exec r.1 r.2)) (fetch (sample [0x69, 0x01])) =
      true := by decide +kernel

theorem witness_TwoWritesLoadTheAddress : State.reset.ps.addrSecond = false := rfl


end Sys2Proof.Tests
end

section
/-! SUPPORT. The meaning of every instruction as one of a few shapes: an operation on the registers, one that reads, stores
or modifies its operand, a branch, or one of the stack operations. What holds of each shape then holds of every
instruction, so the meanings of the 151 constructors of `Instr` are gone through once, in `exec_shape`. -/

namespace Sys2Proof.Machine

/-! ## The shapes -/

/-- The operations that read their operand, by mnemonic (R174). -/
inductive Reading : Mnemonic → (Source → State → State) → Prop
  | adc : Reading .adc adc
  | sbc : Reading .sbc sbc
  | and : Reading .and andOp
  | ora : Reading .ora ora
  | eor : Reading .eor eor
  | cmp : Reading .cmp cmp
  | cpx : Reading .cpx cpx
  | cpy : Reading .cpy cpy
  | bit : Reading .bit bitOp
  | lda : Reading .lda lda
  | ldx : Reading .ldx ldx
  | ldy : Reading .ldy ldy

/-- The operations that store a register to their operand (R286). -/
inductive Storing : Mnemonic → (MemOperand → State → State) → Prop
  | sta : Storing .sta sta
  | stx : Storing .stx stx
  | sty : Storing .sty sty

/-- The operations that read and write their operand (R207, R290, R291). -/
inductive Modifying : Mnemonic → (Place → State → State) → Prop
  | asl : Modifying .asl asl
  | lsr : Modifying .lsr lsr
  | rol : Modifying .rol rol
  | ror : Modifying .ror ror
  | inc : Modifying .inc incOp
  | dec : Modifying .dec decOp

/-- The conditional branches, with the flag test of each (R231 to R238). -/
inductive Branching : Mnemonic → (State → Bool) → Prop
  | bcc : Branching .bcc (fun s => !s.C)
  | bcs : Branching .bcs (fun s => s.C)
  | beq : Branching .beq (fun s => s.Z)
  | bmi : Branching .bmi (fun s => s.N)
  | bne : Branching .bne (fun s => !s.Z)
  | bpl : Branching .bpl (fun s => !s.N)
  | bvc : Branching .bvc (fun s => !s.V)
  | bvs : Branching .bvs (fun s => s.V)

/-- The operations on the registers and flags alone (R239, R270 to R275, R292 to R303). -/
inductive Registering : Mnemonic → (State → State) → Prop
  | jmp (addr : Word) : Registering .jmp (fun s => jmp (addr, s))
  | inx : Registering .inx (fun s => countX (s.X + 1) s)
  | iny : Registering .iny (fun s => countY (s.Y + 1) s)
  | dex : Registering .dex (fun s => countX (s.X - 1) s)
  | dey : Registering .dey (fun s => countY (s.Y - 1) s)
  | clc : Registering .clc (fun s => advance 1 { s with C := false })
  | sec : Registering .sec (fun s => advance 1 { s with C := true })
  | cli : Registering .cli (fun s => advance 1 { s with I := false })
  | sei : Registering .sei (fun s => advance 1 { s with I := true })
  | cld : Registering .cld (fun s => advance 1 { s with D := false })
  | sed : Registering .sed (fun s => advance 1 { s with D := true })
  | clv : Registering .clv (fun s => advance 1 { s with V := false })
  | nop : Registering .nop (fun s => advance 1 s)
  | tax : Registering .tax (fun s => transfer s.A (fun t => { t with X := s.A }) s)
  | tay : Registering .tay (fun s => transfer s.A (fun t => { t with Y := s.A }) s)
  | txa : Registering .txa (fun s => transfer s.X (fun t => { t with A := s.X }) s)
  | tya : Registering .tya (fun s => transfer s.Y (fun t => { t with A := s.Y }) s)
  | tsx : Registering .tsx (fun s => transfer s.SP (fun t => { t with X := s.SP }) s)
  | txs : Registering .txs (fun s => advance 1 { s with SP := s.X })

/-- What an instruction of a mnemonic and a mode can do to the state. -/
inductive Shape : Mnemonic → Mode → (State → State) → Prop
  | read {mn op md} (h : Reading mn op) (src : Source) : Shape mn md (op src)
  | store {mn op md} (h : Storing mn op) (dst : MemOperand) : Shape mn md (op dst)
  | modifyAcc {mn op} (h : Modifying mn op) : Shape mn .acc (op .acc)
  | modifyMem {mn op md} (h : Modifying mn op) (m : MemOperand) : Shape mn md (op (.mem m))
  | branch {mn cond md} (h : Branching mn cond) (b1 : Byte) : Shape mn md (fun s => branch (cond s) b1 s)
  | jmpInd {md} (addr : Word) : Shape .jmp md (fun s => jmp (indirectTarget addr s))
  | pha {md} : Shape .pha md pha
  | pla {md} : Shape .pla md pla
  | php {md} : Shape .php md php
  | plp {md} : Shape .plp md plp
  | jsr {md} (addr : Word) : Shape .jsr md (callSubroutine addr)
  | rts {md} : Shape .rts md rtsOp
  | rti {md} : Shape .rti md returnFromHandler
  | brk {md} : Shape .brk md brkOp
  | register {mn f md} (h : Registering mn f) : Shape mn md f

/-- Every instruction has a metadata slot, completes in every state, and its meaning has one of the shapes (R125, R138).
The mnemonic and the operation determine the constructor of `Shape`, so `constructor` finds it. -/
theorem exec_shape (i : Instr) :
    ∃ sl f, i.slot? = some sl ∧ Shape sl.mnemonic sl.mode f ∧ ∀ s, exec i s = .next (f s) := by
  cases i <;> exact ⟨_, _, rfl, by repeat constructor, fun _ => rfl⟩

end Sys2Proof.Machine
end

section
/-! SUPPORT. What holds of every `Shape`: storage keeps its canonical form, the registers outside the table of R51
stay, and D has no influence. -/

namespace Sys2Proof.Machine

open Sys2Proof.Spec

/-! ## What the shared operations do to storage -/

@[simp] theorem memReadWord_mem (a : Word) (s : State) : (memReadWord a s).2.mem = s.mem := by
  simp [memReadWord]

@[simp] theorem loadVector_mem (vector : Word) (s : State) : (loadVector vector s).mem = s.mem := by
  simp [loadVector]

@[simp] theorem loadOperand_state_mem (src : Source) (s : State) : (loadOperand src s).2.mem = s.mem := by
  rw [loadOperand_state]

/-- The read of a read-modify-write instruction changes nothing but the device. -/
theorem loadPlace_state (p : Place) (s : State) : (loadPlace p s).2.2 = { s with ps := (loadPlace p s).2.2.ps } := by
  cases p with
  | acc => rfl
  | mem m => rw [loadPlace_mem]; exact memRead_state _ _

/-- The two pointer reads of JMP indirect change nothing but the device (R171). -/
theorem indirectTarget_state (ptr : Word) (s : State) :
    (indirectTarget ptr s).2 = { s with ps := (indirectTarget ptr s).2.ps } := by
  simp only [indirectTarget]
  rw [memRead_state, memRead_state]

theorem push_wf (v : Byte) {s : State} (h : StorageCanonical s) : StorageCanonical (push v s) :=
  memWrite_wf _ v s h

theorem pushWord_wf (w : Word) {s : State} (h : StorageCanonical s) : StorageCanonical (pushWord w s) :=
  push_wf _ (push_wf _ h)

theorem storeResult_wf (dst : Option Word) (v : Byte) {s : State} (h : StorageCanonical s) :
    StorageCanonical (storeResult dst v s) := by
  cases dst with
  | none => exact h
  | some a => exact memWrite_wf a v s h

theorem storeOperand_wf (dst : MemOperand) (v : Byte) {s : State} (h : StorageCanonical s) :
    StorageCanonical (storeOperand dst v s) := by
  rw [storeOperand_eq]
  exact memWrite_wf _ v s h

theorem enterHandler_wf (vector ret : Word) (brk : Bool) {s : State} (h : StorageCanonical s) :
    StorageCanonical (enterHandler vector ret brk s) := by
  simp only [StorageCanonical, enterHandler, loadVector_mem]
  exact push_wf _ (pushWord_wf ret h)

/-- The service of an interrupt keeps the canonical form of storage: a Reset stores nothing, an NMI or IRQ stores its
stack frame. -/
theorem service_wf (k : InterruptKind) {s : State} (h : StorageCanonical s) : StorageCanonical (service k s) := by
  cases k with
  | reset => simpa only [StorageCanonical, service, serviceReset_eq] using h
  | nmi => exact enterHandler_wf _ _ _ h
  | irq => exact enterHandler_wf _ _ _ h

theorem serviceInterrupt_wf {s : State} (h : StorageCanonical s) : StorageCanonical (serviceInterrupt s) := by
  rcases serviceInterrupt_cases s with ⟨hs, -⟩ | ⟨k, -, hs⟩ <;> rw [hs]
  · exact h
  · exact service_wf k h

/-! ## What the shared operations do with D (R42) -/

theorem memRead_withD (a : Word) (s : State) (d : Bool) :
    memRead a { s with D := d } = ((memRead a s).1, { (memRead a s).2 with D := d }) := by
  unfold memRead
  split <;> rfl

theorem memWrite_withD (a : Word) (v : Byte) (s : State) (d : Bool) :
    memWrite a v { s with D := d } = { memWrite a v s with D := d } := by
  rw [memWrite_congr a v (s := s) (t := { s with D := d }) rfl rfl]
  conv_rhs => rw [memWrite_state]

theorem effectiveAddr_withD (m : MemOperand) (s : State) (d : Bool) :
    (effectiveAddr m { s with D := d }).1 = (effectiveAddr m s).1 := by
  cases m <;> simp only [effectiveAddr, zeroPagePointer_eq] <;> rfl

theorem loadOperand_withD (src : Source) (s : State) (d : Bool) :
    loadOperand src { s with D := d } = ((loadOperand src s).1, { (loadOperand src s).2 with D := d }) := by
  cases src with
  | imm b1 => rfl
  | mem m => simp only [loadOperand_mem, effectiveAddr_withD, memRead_withD]

theorem loadPlace_withD (p : Place) (s : State) (d : Bool) :
    loadPlace p { s with D := d } =
      ((loadPlace p s).1, (loadPlace p s).2.1, { (loadPlace p s).2.2 with D := d }) := by
  cases p with
  | acc => rfl
  | mem m => simp only [loadPlace_mem, effectiveAddr_withD, memRead_withD]

theorem storeResult_withD (dst : Option Word) (v : Byte) (s : State) (d : Bool) :
    storeResult dst v { s with D := d } = { storeResult dst v s with D := d } := by
  cases dst with
  | none => rfl
  | some a => exact memWrite_withD a v s d

theorem storeOperand_withD (dst : MemOperand) (v : Byte) (s : State) (d : Bool) :
    storeOperand dst v { s with D := d } = { storeOperand dst v s with D := d } := by
  simp only [storeOperand_eq, effectiveAddr_withD, memWrite_withD]
  rfl

theorem indirectTarget_withD (ptr : Word) (s : State) (d : Bool) :
    indirectTarget ptr { s with D := d } = ((indirectTarget ptr s).1, { (indirectTarget ptr s).2 with D := d }) := by
  simp only [indirectTarget, memRead_withD]

/-! ## Frames and inertness, by mnemonic -/

/-- From `s` to `t` the latches and every register and flag that the table of R51 does not list for the mnemonic are
unchanged; A may also change in the mode ACC. -/
def KeepsUnlisted (mn : Mnemonic) (md : Mode) (s t : State) : Prop :=
  (t.pendReset = s.pendReset ∧ t.pendNMI = s.pendNMI ∧ t.pendIRQ = s.pendIRQ) ∧
  (mn ∉ writesA → md ≠ .acc → t.A = s.A) ∧
  (mn ∉ writesX → t.X = s.X) ∧
  (mn ∉ writesY → t.Y = s.Y) ∧
  (mn ∉ writesSP → t.SP = s.SP) ∧
  (mn ∉ writesC → t.C = s.C) ∧
  (mn ∉ writesZN → t.Z = s.Z ∧ t.N = s.N) ∧
  (mn ∉ writesV → t.V = s.V) ∧
  (mn ∉ writesI → t.I = s.I) ∧
  (mn ∉ writesD → t.D = s.D) ∧
  (mn ∉ writesB → t.B = s.B)

/-- D has no influence on an operation of the mnemonic: with another value of D it gives the same state with that value,
or the same state when the mnemonic writes D. -/
def IgnoresD (mn : Mnemonic) (f : State → State) : Prop :=
  ∀ s d, f { s with D := d } = if mn ∈ writesD then f s else { f s with D := d }

/-- An operation of the mnemonic on the registers alone. -/
structure RegisterAct (mn : Mnemonic) (f : State → State) : Prop where
  mem : ∀ s, (f s).mem = s.mem
  ignoresD : IgnoresD mn f
  keeps : ∀ md s, KeepsUnlisted mn md s (f s)

/-- A reading operation is `readOperand` with an operation on the registers (R174). -/
theorem Reading.exists_act {mn : Mnemonic} {op : Source → State → State} (h : Reading mn op) :
    ∃ act, (∀ src s, op src s = readOperand src act s) ∧ ∀ m, RegisterAct mn (act m) := by
  cases h
  case and | ora | eor =>
    refine ⟨_, fun src s => Eq.trans (b := logic _ src s) rfl rfl, ?_⟩
    refine fun m => ⟨fun _ => rfl, fun _ _ => rfl, fun _ _ => ?_⟩
    simp [KeepsUnlisted, writesA, writesZN]
  all_goals
    refine ⟨_, fun _ _ => rfl, ?_⟩
    refine fun m => ⟨fun _ => rfl, fun _ _ => rfl, fun _ _ => ?_⟩
    simp [KeepsUnlisted, writesA, writesX, writesY, writesC, writesZN, writesV]

/-- A storing operation stores a register other than D (R286). -/
theorem Storing.exists_register {mn : Mnemonic} {op : MemOperand → State → State} (h : Storing mn op) :
    mn ∉ writesD ∧ ∃ reg : State → Byte,
      (∀ dst s, op dst s = storeOperand dst (reg s) s) ∧ ∀ s d, reg { s with D := d } = reg s := by
  cases h <;> exact ⟨by decide, _, fun _ _ => rfl, fun _ _ => rfl⟩

/-- A modifying operation is `modifyOperand` with an operation on the registers, and it writes Z and N (R207). -/
theorem Modifying.exists_act {mn : Mnemonic} {op : Place → State → State} (h : Modifying mn op) :
    mn ∈ writesZN ∧ ∃ act, (∀ p s, op p s = modifyOperand p act s) ∧
      (∀ v, RegisterAct mn (fun s => (act v s).2)) ∧ ∀ v s d, (act v { s with D := d }).1 = (act v s).1 := by
  cases h
  case inc | dec =>
    refine ⟨by decide, _, fun _ _ => rfl, ?_⟩
    refine ⟨fun v => ⟨fun _ => rfl, fun _ _ => rfl, fun _ _ => ?_⟩, fun _ _ _ => rfl⟩
    simp [KeepsUnlisted]
  all_goals
    refine ⟨by decide, _, fun p s => Eq.trans (b := shift _ p s) rfl rfl, ?_⟩
    refine ⟨fun v => ⟨fun _ => rfl, fun _ _ => rfl, fun _ _ => ?_⟩, fun _ _ _ => rfl⟩
    simp [KeepsUnlisted, writesC]

/-- A branch writes PC and nothing else (R230). -/
theorem branch_eq (cond : Bool) (b1 : Byte) (s : State) :
    branch cond b1 s = { s with PC := (if cond then s.PC + b1.signExtend 16 else s.PC) + 2 } := by
  cases cond <;> rfl

theorem Branching.registerAct {mn : Mnemonic} {cond : State → Bool} (h : Branching mn cond) (b1 : Byte) :
    RegisterAct mn (fun s => branch (cond s) b1 s) := by
  simp only [branch_eq]
  cases h <;> refine ⟨fun _ => rfl, fun _ _ => rfl, fun _ _ => ?_⟩ <;> simp [KeepsUnlisted]

theorem Registering.registerAct {mn : Mnemonic} {f : State → State} (h : Registering mn f) : RegisterAct mn f := by
  cases h <;> refine ⟨fun _ => rfl, fun _ _ => rfl, fun _ _ => ?_⟩ <;>
    simp [KeepsUnlisted, writesA, writesX, writesY, writesSP, writesC, writesZN, writesV, writesI, writesD,
      Machine.jmp, countX, countY, transfer]

/-! ### Frames of the shared operations -/

section
variable {mn : Mnemonic} {md : Mode} {s t u : State}

theorem KeepsUnlisted.refl : KeepsUnlisted mn md s s := by simp [KeepsUnlisted]

theorem KeepsUnlisted.trans (h : KeepsUnlisted mn md s t) (h' : KeepsUnlisted mn md t u) : KeepsUnlisted mn md s u := by
  simp_all [KeepsUnlisted]

theorem loadOperand_keeps (src : Source) : KeepsUnlisted mn md s (loadOperand src s).2 := by
  rw [loadOperand_state]
  exact .refl

theorem loadPlace_keeps (p : Place) : KeepsUnlisted mn md s (loadPlace p s).2.2 := by
  rw [loadPlace_state]
  exact .refl

theorem memWrite_keeps (a : Word) (v : Byte) : KeepsUnlisted mn md s (memWrite a v s) := by
  rw [memWrite_state]
  exact .refl

theorem setZN_keeps (hz : mn ∈ writesZN) (v : Byte) : KeepsUnlisted mn md s (setZN v s) := by
  simp [KeepsUnlisted, hz]

/-- A result goes to memory, or in the mode ACC to A. -/
theorem storeResult_keeps (p : Place) (hp : p = .acc → md = .acc) (v : Byte) :
    KeepsUnlisted mn md s (storeResult (loadPlace p t).2.1 v s) := by
  cases p with
  | acc => simp [KeepsUnlisted, loadPlace, storeResult, hp]
  | mem m => rw [loadPlace_mem]; exact memWrite_keeps _ v

theorem advance_keeps (n : Nat) : KeepsUnlisted mn md s (advance n s) := by simp [KeepsUnlisted]

theorem readOperand_keeps {act : Byte → State → State} (h : ∀ m, RegisterAct mn (act m)) (src : Source) :
    KeepsUnlisted mn md s (readOperand src act s) :=
  (loadOperand_keeps src).trans (((h _).keeps md _).trans (advance_keeps _))

theorem storeOperand_keeps (dst : MemOperand) (v : Byte) : KeepsUnlisted mn md s (storeOperand dst v s) := by
  rw [storeOperand_eq]
  exact memWrite_keeps _ v

theorem modifyOperand_keeps {act : Byte → State → Byte × State} (h : ∀ v, RegisterAct mn (fun s => (act v s).2))
    (hz : mn ∈ writesZN) (p : Place) (hp : p = .acc → md = .acc) : KeepsUnlisted mn md s (modifyOperand p act s) :=
  (loadPlace_keeps p).trans (((h _).keeps md _).trans
    ((storeResult_keeps p hp _).trans ((setZN_keeps hz _).trans (advance_keeps _))))

theorem Modifying.keeps {op : Place → State → State} (h : Modifying mn op) (p : Place) (hp : p = .acc → md = .acc) :
    KeepsUnlisted mn md s (op p s) := by
  obtain ⟨hz, act, hop, hact, -⟩ := h.exists_act
  rw [hop]
  exact modifyOperand_keeps hact hz p hp

end

/-! ### Operations with an operand: storage, and D -/

section
variable {mn : Mnemonic}

theorem readOperand_mem {act : Byte → State → State} (h : ∀ m, RegisterAct mn (act m)) (src : Source) (s : State) :
    (readOperand src act s).mem = s.mem := by
  simp [readOperand, (h _).mem]

theorem readOperand_ignoresD {act : Byte → State → State} (h : ∀ m, RegisterAct mn (act m)) (src : Source) :
    IgnoresD mn (readOperand src act) := by
  intro s d
  simp only [readOperand, loadOperand_withD, (h _).ignoresD _ d]
  split <;> rfl

variable {act : Byte → State → Byte × State} (h : ∀ v, RegisterAct mn (fun s => (act v s).2))
include h

theorem modifyOperand_wf (p : Place) {s : State} (hs : StorageCanonical s) :
    StorageCanonical (modifyOperand p act s) := by
  refine storeResult_wf _ _ ?_
  rw [StorageCanonical, (h _).mem, loadPlace_state]
  exact hs

theorem modifyOperand_ignoresD (hv : ∀ v s d, (act v { s with D := d }).1 = (act v s).1) (p : Place) :
    IgnoresD mn (modifyOperand p act) := by
  intro s d
  have hact := (h (loadPlace p s).1).ignoresD (loadPlace p s).2.2 d
  simp only [modifyOperand, loadPlace_withD, hv, hact]
  split
  · rfl
  · rw [storeResult_withD]
    rfl

end

/-! ### Every shape -/

section
variable {mn : Mnemonic} {md : Mode} {f : State → State}

/-- No instruction takes storage out of its canonical form. -/
theorem wf_of_shape (h : Shape mn md f) {s : State} (hs : StorageCanonical s) : StorageCanonical (f s) := by
  cases h with
  | read h src =>
    obtain ⟨act, hop, hact⟩ := h.exists_act
    rwa [hop, StorageCanonical, readOperand_mem hact]
  | store h dst =>
    obtain ⟨-, reg, hop, -⟩ := h.exists_register
    rw [hop]
    exact storeOperand_wf dst _ hs
  | modifyAcc h | modifyMem h m =>
    obtain ⟨-, act, hop, hact, -⟩ := h.exists_act
    rw [hop]
    exact modifyOperand_wf hact _ hs
  | branch h b1 => rwa [StorageCanonical, (h.registerAct b1).mem]
  | register h => rwa [StorageCanonical, h.registerAct.mem]
  | jmpInd addr =>
    show StorageCanonical (indirectTarget addr s).2
    rw [indirectTarget_state]
    exact hs
  | pha | php => exact push_wf _ hs
  | jsr addr => exact pushWord_wf _ hs
  | pla => rwa [pla, pop_eq]
  | plp => rwa [plp, pop_eq]
  | rts => rwa [rtsOp, popWord_eq]
  | rti => rwa [returnFromHandler_eq]
  | brk => exact enterHandler_wf _ _ _ hs

/-- Every instruction keeps the registers and flags it is not listed for (R51). -/
theorem keeps_of_shape (h : Shape mn md f) (s : State) :
    KeepsUnlisted mn md s (f s) := by
  cases h with
  | read h src =>
    obtain ⟨act, hop, hact⟩ := h.exists_act
    rw [hop]
    exact readOperand_keeps hact src
  | store h dst =>
    obtain ⟨-, reg, hop, -⟩ := h.exists_register
    rw [hop]
    exact storeOperand_keeps dst _
  | modifyAcc h => exact h.keeps .acc fun _ => rfl
  | modifyMem h m => exact h.keeps (.mem m) fun hm => by cases hm
  | branch h b1 => exact (h.registerAct b1).keeps md s
  | register h => exact h.registerAct.keeps md s
  | jmpInd addr =>
    show KeepsUnlisted .jmp md s (jumpTo _ (indirectTarget addr s).2)
    rw [indirectTarget_state]
    exact .refl (s := s)
  | pha => simp [KeepsUnlisted, pha, push_eq, writesSP]
  | php => simp [KeepsUnlisted, php, push_eq, writesSP, writesB]
  | jsr addr => simp [KeepsUnlisted, callSubroutine, pushWord, push_eq, writesSP]
  | pla => simp [KeepsUnlisted, pla, pop_eq, writesSP, writesA, writesZN]
  | plp => simp [KeepsUnlisted, plp, pop_eq, writesSP, writesC, writesZN, writesV, writesI, writesD, writesB]
  | rts => simp [KeepsUnlisted, rtsOp, popWord_eq, writesSP]
  | rti => simp [KeepsUnlisted, returnFromHandler_eq, writesSP, writesC, writesZN, writesV, writesI, writesD, writesB]
  | brk => simp [KeepsUnlisted, brkOp, enterHandler_eq, writesSP, writesI, writesB]

/-- D has no influence on any instruction but those that push it (R42). -/
theorem ignoresD_of_shape (h : Shape mn md f) (hphp : mn ≠ .php) (hbrk : mn ≠ .brk) :
    IgnoresD mn f := by
  intro s d
  cases h with
  | read h src =>
    obtain ⟨act, hop, hact⟩ := h.exists_act
    simp only [hop]
    exact readOperand_ignoresD hact src s d
  | store h dst =>
    obtain ⟨hD, reg, hop, hreg⟩ := h.exists_register
    rw [if_neg hD, hop, hop, hreg]
    exact storeOperand_withD dst _ s d
  | modifyAcc h | modifyMem h m =>
    obtain ⟨-, act, hop, hact, hv⟩ := h.exists_act
    simp only [hop]
    exact modifyOperand_ignoresD hact hv _ s d
  | branch h b1 => exact (h.registerAct b1).ignoresD s d
  | register h => exact h.registerAct.ignoresD s d
  | jmpInd addr =>
    simp only [jmp, indirectTarget_withD]
    rfl
  | pha => simp only [pha, push_eq]; rfl
  | jsr addr => simp only [callSubroutine, pushWord, push_eq]; rfl
  | pla => simp only [pla, pop_eq]; rfl
  | plp => simp only [plp, pop_eq]; rfl
  | rts => simp only [rtsOp, popWord_eq]; rfl
  | rti => simp only [returnFromHandler_eq]; rfl
  | php => exact absurd rfl hphp
  | brk => exact absurd rfl hbrk

end

/-! ## The instructions with D, by mnemonic -/

theorem mem_writesD_iff {i : Instr} {sl : Slot} (h : i.slot? = some sl) :
    sl.mnemonic ∈ writesD ↔ i = .cld ∨ i = .sed ∨ i = .plp ∨ i = .rti := by
  cases i <;> cases h <;> simp [writesD]

theorem eq_of_mnemonic_php_brk {i : Instr} {sl : Slot} (h : i.slot? = some sl) :
    (sl.mnemonic = .php → i = .php) ∧ (sl.mnemonic = .brk → i = .brk) := by
  cases i <;> cases h <;> simp

/-! ## Power-on -/

theorem mkWord_eq_wordOf (hi lo : Byte) : mkWord hi lo = wordOf hi lo := by
  apply BitVec.eq_of_toNat_eq
  have := hi.isLt
  have := lo.isLt
  rw [toNat_mkWord, wordOf, BitVec.toNat_ofNat]
  omega

/-- The cells of the program banks are storage (R386). -/
theorem isStorageIndex_bank {k : Nat} (hlo : 0x8000 ≤ k) (hhi : k < 0x10000) : isStorageIndex k = true := by
  have hw : inWindow (BitVec.ofNat 16 k) = false := by
    rw [Bool.eq_false_iff, ne_eq, inWindow_iff, BitVec.toNat_ofNat]
    omega
  have hle : 0x2000 ≤ k := by omega
  simp [isStorageIndex, hw, hle, hhi]

theorem loadBanks_wf (bank0 : Bank) (bank1 : Option Bank) {m : Memory} (h : Memory.wf m = true) :
    Memory.wf (loadBanks bank0 bank1 m) = true := by
  refine Memory.setAll_wf _ _ _ (Memory.setAll_wf _ _ _ h ?_) ?_ <;> intro i hi <;>
    rw [Vector.length_toList] at hi <;> exact isStorageIndex_bank (by omega) (by omega)

/-! ## The status byte -/

theorem getElem_flagBit (f : Bool) (k : Nat) {i : Nat} (hi : i < 8) : (flagBit f k)[i] = (f && decide (i = k)) := by
  cases f with
  | false => simp [flagBit]
  | true =>
    rw [Bool.eq_iff_iff]
    simp only [flagBit, ↓reduceIte, BitVec.getElem_shiftLeft, BitVec.getElem_one, Bool.and_eq_true,
      Bool.not_eq_eq_eq_not, Bool.not_true, decide_eq_false_iff_not, not_lt, decide_eq_true_eq, Bool.true_and]
    omega

/-- The bits of the packed status byte (R46). -/
theorem getElem_packFlags (s : State) :
    (packFlags s)[7] = s.N ∧ (packFlags s)[6] = s.V ∧ (packFlags s)[5] = true ∧ (packFlags s)[4] = s.B ∧
    (packFlags s)[3] = s.D ∧ (packFlags s)[2] = s.I ∧ (packFlags s)[1] = s.Z ∧ (packFlags s)[0] = s.C := by
  simp [packFlags, getElem_flagBit]

/-- The packed status byte as the sum of its flags' weights. -/
theorem packFlags_eq_statusByte (s : State) : packFlags s = statusByte s.B s := by
  have h : ∀ n v b d i z c : Bool,
      flagBit n 7 ||| flagBit v 6 ||| 0x20#8 ||| flagBit b 4 ||| flagBit d 3 ||| flagBit i 2 ||| flagBit z 1 |||
        flagBit c 0 =
      BitVec.ofNat 8 (bitOf n 128 + bitOf v 64 + 32 + bitOf b 16 + bitOf d 8 + bitOf i 4 + bitOf z 2 + bitOf c 1) := by
    decide
  exact h s.N s.V s.B s.D s.I s.Z s.C

theorem packFlags_unpackFlags (p : Byte) (s : State) : packFlags (unpackFlags p s) = p ||| 0x20#8 := by
  apply BitVec.eq_of_getElem_eq
  intro i hi
  interval_cases i <;> simp [getElem_packFlags]

theorem unpackFlags_packFlags (s : State) : unpackFlags (packFlags s) s = s := by
  simp [unpackFlags, getElem_packFlags]

end Sys2Proof.Machine

namespace Sys2Proof.Proofs

open Sys2Proof.Machine Sys2Proof.Spec

/-- Settles O11: the fetch changes nothing but the device, and the instruction and the service of an interrupt each keep
the canonical form. -/
theorem stepKeepsStorageCanonical : Obligations.StepKeepsStorageCanonical := by
  intro s u hs hstep
  obtain ⟨i, t, v, hfetch, hexec, rfl⟩ := step_next_cases hstep
  obtain ⟨sl, f, -, hshape, hf⟩ := exec_shape i
  have ht : StorageCanonical t := by
    rw [fetch_next_state hfetch]
    exact hs
  have hv : v = f t := by
    rw [hf] at hexec
    cases hexec
    rfl
  rw [hv]
  exact serviceInterrupt_wf (wf_of_shape hshape ht)

/-- Settles O7: the shape of the instruction keeps what its mnemonic is not listed for. -/
theorem instructionsCompleteAndKeepRegisters : Obligations.InstructionsCompleteAndKeepRegisters := by
  intro i s
  obtain ⟨sl, f, hslot, hshape, hf⟩ := exec_shape i
  exact ⟨sl, f s, hslot, hf s, keeps_of_shape hshape s⟩

/-- Settles O12: the loader writes cells $8000 to $FFFF, all of them storage, and reading the Reset vector writes none. -/
theorem powerOnStorageCanonical : Obligations.PowerOnStorageCanonical := by
  refine ⟨rfl, fun m bank0 bank1 device hm => ?_⟩
  rw [StorageCanonical, powerOnWith, powerOn, loadVector_mem]
  exact loadBanks_wf bank0 bank1 hm

/-- Settles O43: packing and unpacking are inverse on the seven flags, and bit 5 is always packed as 1. -/
theorem packUnpackFlags : Obligations.PackUnpackFlags := fun p s =>
  ⟨packFlags_unpackFlags p s, packFlags_eq_statusByte s, unpackFlags_packFlags s⟩

/-- Settles O50: the shapes of all instructions but PHP and BRK ignore D. -/
theorem decimalFlagIsInert : Obligations.DecimalFlagIsInert := by
  intro i s d hphp hbrk
  obtain ⟨sl, f, hslot, hshape, hf⟩ := exec_shape i
  obtain ⟨hmnphp, hmnbrk⟩ := eq_of_mnemonic_php_brk hslot
  have hD := ignoresD_of_shape hshape (hphp ∘ hmnphp) (hbrk ∘ hmnbrk) s d
  refine ⟨f s, hf s, ?_⟩
  simp only [hf, hD, mem_writesD_iff hslot]

/-- Settles O13: reading the Reset vector changes PC alone. -/
theorem powerOnState : Obligations.PowerOnState := by
  intro m device
  rw [powerOn, loadVector_eq (.inr (.inl rfl)), mkWord_eq_wordOf]
  rfl

end Sys2Proof.Proofs
end

section
/-! SUPPORT. The bus access by access: mirrored RAM (R72, R73), the bytes a DMA reads (R77), the stack cells as numbers
(R34), and which cells of storage each instruction stores to (R82, R86). -/

namespace Sys2Proof.Machine

open Sys2Proof.Spec

/-! ## Words and addresses as numbers -/

theorem loByte_eq_lowOf (w : Word) : loByte w = lowOf w :=
  BitVec.eq_of_toNat_eq (by simp [loByte, lowOf])

theorem hiByte_eq_highOf (w : Word) : hiByte w = highOf w :=
  BitVec.eq_of_toNat_eq (by simp [hiByte, highOf, Nat.shiftRight_eq_div_pow])

theorem stackAddr_eq_stackCell (sp : Byte) : stackAddr sp = stackCell sp := by
  rw [stackAddr, mkWord_eq_wordOf]
  rfl

/-- The address of byte `i` of a page as a number (R77). -/
theorem pageAddr_eq (page : Byte) {i : Nat} (hi : i < 256) :
    pageAddr page i = BitVec.ofNat 16 (page.toNat * 256 + i) := by
  rw [pageAddr, mkWord_eq_wordOf, wordOf, BitVec.toNat_ofNat, Nat.mod_eq_of_lt hi]

/-! ## Mirrored RAM -/

/-- The RAM lies outside the window (R70, R76). -/
theorem inWindow_of_lt {a : Word} (h : a.toNat < 0x2000) : inWindow a = false := by
  rw [Bool.eq_false_iff, ne_eq, inWindow_iff]
  omega

/-- The mirror image `k` of an address below $2000 is an address below $2000 (R73). -/
theorem toNat_mirrorImage (n : Nat) (k : Fin 4) :
    (BitVec.ofNat 16 (n % 0x800 + k * 0x800)).toNat = n % 0x800 + k * 0x800 := by
  have := k.isLt
  rw [BitVec.toNat_ofNat]
  omega

/-! ## The reads of a DMA, one by one -/

/-- The state before read `i` of a DMA (R77, D23). -/
def dmaState (page : Byte) (s : State) : Nat → State
  | 0 => s
  | i + 1 => (memRead (pageAddr page i) (dmaState page s i)).2

@[simp] theorem dmaState_zero (page : Byte) (s : State) : dmaState page s 0 = s := rfl

/-- The byte that read `i` of a DMA returns. -/
def dmaByte (page : Byte) (s : State) (i : Nat) : Byte := (memRead (pageAddr page i) (dmaState page s i)).1

theorem dmaReads_dmaState (page : Byte) (s : State) (n i : Nat) (d : Vector Byte 256) :
    (dmaReads page n i d (dmaState page s i)).2 = dmaState page s (i + n) := by
  induction n generalizing i d with
  | zero => rfl
  | succ n ih =>
    refine (ih (i + 1) _).trans ?_
    rw [Nat.add_assoc, Nat.add_comm 1]

/-- The bytes a DMA has collected: each read's own byte at the read's index (D23). -/
theorem getElem_dmaReads (page : Byte) (s : State) (n i : Nat) (d : Vector Byte 256) (j : Nat) (hj : j < 256) :
    (dmaReads page n i d (dmaState page s i)).1[j] =
      if i ≤ j ∧ j < i + n then dmaByte page s j else d[j] := by
  induction n generalizing i d with
  | zero => rw [if_neg (by omega)]; rfl
  | succ n ih =>
    refine (ih (i + 1) _).trans ?_
    rcases Nat.lt_trichotomy i j with h | rfl | h
    · rw [Vector.getElem_setIfInBounds_ne hj (by omega)]
      exact if_congr (by omega) rfl rfl
    · rw [if_neg (by omega), if_pos (by omega), Vector.getElem_setIfInBounds_self]
      rfl
    · rw [if_neg (by omega), if_neg (by omega), Vector.getElem_setIfInBounds_ne hj (by omega)]

/-- An OAM DMA hands the device the bytes of its 256 reads, in the state after the last (R77). -/
theorem oamDMA_eq (page : Byte) (s : State) :
    oamDMA page s =
      { dmaState page s 256 with ps := periphDMA (Vector.ofFn (dmaByte page s ·)) (dmaState page s 256).ps } := by
  have hbytes : (dmaReads page 256 0 (Vector.replicate 256 0) s).1 = Vector.ofFn (dmaByte page s ·) := by
    ext j hj
    have h := getElem_dmaReads page s 256 0 (Vector.replicate 256 0) j hj
    rw [dmaState_zero, if_pos (by omega)] at h
    rw [h, Vector.getElem_ofFn]
  have hstate := dmaReads_dmaState page s 256 0 (Vector.replicate 256 0)
  rw [dmaState_zero, Nat.zero_add] at hstate
  rw [oamDMA, hbytes, hstate]

/-! ## The stack -/

@[simp] theorem push_SP (v : Byte) (s : State) : (push v s).SP = s.SP - 1 := by rw [push_eq]

@[simp] theorem pushWord_SP (w : Word) (s : State) : (pushWord w s).SP = s.SP - 2 := by
  simp [pushWord, BitVec.sub_sub]

/-- `Push` as one write of the bus (R90). -/
theorem push_eq_memWrite (v : Byte) (s : State) :
    push v s = { memWrite (stackCell s.SP) v s with SP := s.SP - 1 } := by
  rw [push, stackAddr_eq_stackCell, memWrite_SP]

/-- A pop straight after a push gives the byte back and restores SP, for every SP (R90, R91). -/
theorem pop_push (v : Byte) (s : State) : pop (push v s) = (v, { push v s with SP := s.SP }) := by
  have hSP : (push v s).SP + 1 = s.SP := by rw [push_SP]; exact sub_add_cancel s.SP 1
  have hbyte : peek (push v s) (stackAddr s.SP) = v := by simp [push_eq, peek, Memory.get_set]
  rw [pop_eq, hSP, hbyte]

/-! ## The host's addresses (R89) -/

theorem hostAddress_out {a : Int} (h : a < 0 ∨ 65535 < a) : hostAddress a = none :=
  if_neg (by omega)

theorem hostAddress_in {a : Int} (h0 : 0 ≤ a) (h1 : a ≤ 65535) : hostAddress a = some (BitVec.ofInt 16 a) :=
  if_pos ⟨h0, h1⟩

/-! ## Which cells change -/

/-- From `s` to `t` every byte of storage is unchanged but those of the given cells. -/
def StoresOnly (cells : List Word) (s t : State) : Prop :=
  ∀ a : Word, (∀ b ∈ cells, phys a ≠ phys b) → peek t a = peek s a

/-- The cells a write of an address changes: its own, or none when it is the device's (R76). -/
def writtenCells (a : Word) : List Word := if inWindow a then [] else [a]

section
variable {cells cells' : List Word} {s t u : State}

theorem storesOnly_of_mem (h : t.mem = s.mem) : StoresOnly cells s t := fun a _ => by rw [peek, peek, h]

theorem StoresOnly.trans (h : StoresOnly cells s t) (h' : StoresOnly cells' t u) : StoresOnly (cells ++ cells') s u :=
  fun a ha => (h' a fun b hb => ha b (List.mem_append_right _ hb)).trans
    (h a fun b hb => ha b (List.mem_append_left _ hb))

theorem memWrite_storesOnly (a : Word) (v : Byte) : StoresOnly (writtenCells a) s (memWrite a v s) := by
  cases hw : inWindow a with
  | true => exact storesOnly_of_mem (memWrite_window_mem hw v s)
  | false =>
    intro b hb
    rw [writtenCells, hw] at hb
    rw [peek_memWrite hw, if_neg (hb a (List.mem_singleton_self a))]

theorem push_storesOnly (v : Byte) : StoresOnly [stackCell s.SP] s (push v s) := by
  have h := memWrite_storesOnly (s := s) (stackAddr s.SP) v
  rw [writtenCells, inWindow_stackAddr, stackAddr_eq_stackCell] at h
  rw [push_eq_memWrite]
  exact h

theorem pushWord_storesOnly (w : Word) : StoresOnly [stackCell s.SP, stackCell (s.SP - 1)] s (pushWord w s) := by
  have h := (push_storesOnly (s := s) (hiByte w)).trans (push_storesOnly (loByte w))
  rwa [push_SP] at h

/-- The entry sequence stores the return address and the flags (R257). -/
theorem enterHandler_storesOnly (vector ret : Word) (brk : Bool) :
    StoresOnly [stackCell s.SP, stackCell (s.SP - 1), stackCell (s.SP - 2)] s (enterHandler vector ret brk s) := by
  have h := (pushWord_storesOnly (s := s) ret).trans
    (push_storesOnly (s := { pushWord ret s with B := brk }) (packFlags { pushWord ret s with B := brk }))
  rw [pushWord_SP] at h
  exact h.trans (storesOnly_of_mem (loadVector_mem vector _))

end

/-- The stack cells that the pushing instructions store to (R250, R252, R254, R257). -/
def pushedCells (mn : Mnemonic) (s : State) : List Word :=
  match mn with
  | .pha | .php => [stackCell s.SP]
  | .jsr => [stackCell s.SP, stackCell (s.SP - 1)]
  | .brk => [stackCell s.SP, stackCell (s.SP - 1), stackCell (s.SP - 2)]
  | _ => []

/-- The cells that a store to a memory operand changes. -/
def operandCells (m : Option MemOperand) (s : State) : List Word :=
  m.elim [] (fun m => writtenCells (effectiveAddr m s).1)

theorem storedTo_eq {i : Instr} {sl : Slot} (hslot : i.slot? = some sl) (s : State) :
    storedTo i s = if storesOperand sl.mnemonic then operandCells (operandOf i) s else pushedCells sl.mnemonic s := by
  have hcells : (operandOf i).toList.filterMap (fun m =>
      if inWindow (effectiveAddr m s).1 then none else some (effectiveAddr m s).1) = operandCells (operandOf i) s := by
    cases operandOf i with
    | none => rfl
    | some m => cases hw : inWindow (effectiveAddr m s).1 <;> simp [operandCells, writtenCells, hw]
  rw [storedTo, hslot, hcells]
  obtain ⟨mn, md, base, extra⟩ := sl
  cases mn <;> rfl

/-- What a storing instruction does at its memory operand; `none` is the accumulator. -/
inductive StoreShape : Option MemOperand → (State → State) → Prop
  | store {mn op} (h : Storing mn op) (dst : MemOperand) : StoreShape (some dst) (op dst)
  | modifyAcc {mn op} (h : Modifying mn op) : StoreShape none (op .acc)
  | modifyMem {mn op} (h : Modifying mn op) (m : MemOperand) : StoreShape (some m) (op (.mem m))

theorem operandOf_eq {i : Instr} {sl : Slot} (hslot : i.slot? = some sl) :
    operandOf i = memOperand? sl.mode ((encode i).getD 1 0) ((encode i).getD 2 0) := by
  rw [operandOf, hslot]
  rfl

/-- A storing instruction stores to the operand that its slot and its operand bytes give: the word of an absolute form is
put together again from the two bytes it is laid out in (R124). -/
theorem exec_storeShape {i : Instr} {sl : Slot} (hslot : i.slot? = some sl) (hst : storesOperand sl.mnemonic = true) :
    ∃ f, StoreShape (operandOf i) f ∧ ∀ s, exec i s = .next (f s) := by
  rw [operandOf_eq hslot]
  cases i <;> cases hslot <;> cases hst
  all_goals
    simp only [memOperand?, encode, List.getD_cons_succ, List.getD_cons_zero, mkWord_hiByte_loByte]
    exact ⟨_, by repeat constructor, fun _ => rfl⟩

section
variable {mn : Mnemonic} {act : Byte → State → Byte × State} (h : ∀ v, RegisterAct mn (fun s => (act v s).2))
include h

/-- A read-modify-write of memory is one write at the effective address, with storage as it was until then (R176). -/
theorem modifyOperand_storesOnly (m : MemOperand) (s : State) :
    StoresOnly (writtenCells (effectiveAddr m s).1) s (modifyOperand (.mem m) act s) := by
  have hmem : (act (loadPlace (.mem m) s).1 (loadPlace (.mem m) s).2.2).2.mem = s.mem := by
    rw [(h _).mem, loadPlace_state]
  simp only [modifyOperand, loadPlace_mem] at hmem ⊢
  exact (storesOnly_of_mem (cells := []) hmem).trans (memWrite_storesOnly (effectiveAddr m s).1 _)

theorem modifyOperand_acc_mem (s : State) : (modifyOperand .acc act s).mem = s.mem :=
  (h s.A).mem s

end

section
variable {mn : Mnemonic} {md : Mode} {f : State → State}

theorem storeOperand_storesOnly (dst : MemOperand) (v : Byte) (s : State) :
    StoresOnly (writtenCells (effectiveAddr dst s).1) s (storeOperand dst v s) := by
  rw [storeOperand_eq]
  exact memWrite_storesOnly _ v

/-- A storing instruction changes the cell of its operand, and none when that is the accumulator. -/
theorem storesOnly_of_storeShape {m : Option MemOperand} (h : StoreShape m f) (s : State) :
    StoresOnly (operandCells m s) s (f s) := by
  cases h with
  | store h dst =>
    obtain ⟨-, reg, hop, -⟩ := h.exists_register
    rw [hop]
    exact storeOperand_storesOnly dst _ s
  | modifyAcc h =>
    obtain ⟨-, act, hop, hact, -⟩ := h.exists_act
    rw [hop]
    exact storesOnly_of_mem (modifyOperand_acc_mem hact s)
  | modifyMem h m =>
    obtain ⟨-, act, hop, hact, -⟩ := h.exists_act
    rw [hop]
    exact modifyOperand_storesOnly hact m s

theorem Storing.stores {op : MemOperand → State → State} (h : Storing mn op) : storesOperand mn = true := by
  cases h <;> rfl

theorem Modifying.stores {op : Place → State → State} (h : Modifying mn op) : storesOperand mn = true := by
  cases h <;> rfl

/-- An instruction that does not store to an operand changes no cell but those it pushes to (R90, R92). -/
theorem storesOnly_of_shape (h : Shape mn md f) (hst : storesOperand mn = false) (s : State) :
    StoresOnly (pushedCells mn s) s (f s) := by
  cases h with
  | store h | modifyAcc h | modifyMem h => exact absurd h.stores (by simp [hst])
  | pha => exact push_storesOnly s.A
  | php => exact push_storesOnly (s := { s with B := true }) _
  | jsr addr => exact pushWord_storesOnly (s.PC + 2)
  | brk => exact enterHandler_storesOnly irqVector (s.PC + 2) true
  | read h src =>
    obtain ⟨act, hop, hact⟩ := h.exists_act
    rw [hop]
    exact storesOnly_of_mem (readOperand_mem hact src s)
  | branch h b1 => exact storesOnly_of_mem ((h.registerAct b1).mem s)
  | register h => exact storesOnly_of_mem (h.registerAct.mem s)
  | jmpInd addr =>
    refine storesOnly_of_mem ?_
    show (indirectTarget addr s).2.mem = s.mem
    rw [indirectTarget_state]
  | pla => exact storesOnly_of_mem (by rw [pla, pop_eq]; rfl)
  | plp => exact storesOnly_of_mem (by rw [plp, pop_eq]; rfl)
  | rts => exact storesOnly_of_mem (by rw [rtsOp, popWord_eq]; rfl)
  | rti => exact storesOnly_of_mem (by rw [returnFromHandler_eq]; rfl)

end

end Sys2Proof.Machine

namespace Sys2Proof.Proofs

open Sys2Proof.Machine Sys2Proof.Spec

/-- Settles O8: a storing instruction has the shape of a store to its own operand; any other changes no cell but those it
pushes to. -/
theorem instructionsKeepOtherStorage : Obligations.InstructionsKeepOtherStorage := by
  intro i s
  obtain ⟨sl, f, hslot, hshape, hf⟩ := exec_shape i
  rw [storedTo_eq hslot]
  cases hst : storesOperand sl.mnemonic with
  | true =>
    obtain ⟨g, hstore, hg⟩ := exec_storeShape hslot hst
    exact ⟨g s, hg s, storesOnly_of_storeShape hstore s⟩
  | false => exact ⟨f s, hf s, storesOnly_of_shape hshape hst s⟩

/-- Settles O15: outside the window an access is a read or a write of one cell of storage. -/
theorem storageReadAfterWrite : Obligations.StorageReadAfterWrite := by
  intro a b v s ha hb
  constructor
  · rw [memRead_storage hb, memRead_storage hb, peek_memWrite ha]
  · rw [memWrite_storage ha]

/-- Settles O16: two addresses below $2000 select the same cell exactly when they agree modulo $800. -/
theorem ramIsMirroredFourTimes : Obligations.RamIsMirroredFourTimes := by
  intro a b v s ha
  have hwa := inWindow_of_lt ha
  refine ⟨fun k => ?_, fun hwb hne => ?_⟩
  · have hk := toNat_mirrorImage a.toNat k
    have hlt : a.toNat % 0x800 + k * 0x800 < 0x2000 := by omega
    rw [memRead_storage (inWindow_of_lt (hk.trans_lt hlt)), peek_memWrite hwa, if_pos]
    rw [phys_eq, phys_eq, hk, if_pos hlt, if_pos ha, Nat.add_mul_mod_self_right, Nat.mod_mod]
  · have hphys : phys b ≠ phys a := by
      rw [phys_eq, phys_eq, if_pos ha]
      split <;> omega
    rw [memRead_storage hwb, memRead_storage hwb, peek_memWrite hwa, if_neg hphys]

/-- Settles O17: a read changes the device alone, and so does a write in the window. -/
theorem windowAccessKeepsCore : Obligations.WindowAccessKeepsCore := by
  intro a v s ha
  refine ⟨memRead_state a s, ?_, fun hne => ?_⟩
  · have h := memWrite_state a v s
    rwa [memWrite_window_mem ha] at h
  · have hdma : a ≠ 0x4014#16 := fun h => hne (h ▸ rfl)
    rw [memWrite_window ha hdma]

/-- Settles O18: the states between the reads are `dmaState`, and the copied bytes are those of the reads. -/
theorem oamDmaCopiesPage : Obligations.OamDmaCopiesPage := by
  intro v s
  have hdma : memWrite 0x4014 v s = _ := (memWrite_dma v s).trans (oamDMA_eq v s)
  obtain ⟨-, hcore, -⟩ := windowAccessKeepsCore 0x4014 v s rfl
  refine ⟨hcore, dmaState v s, rfl, fun i hi => ?_, fun i => ?_, ?_⟩
  · rw [← pageAddr_eq v hi]
    rfl
  · rw [hdma, ← pageAddr_eq v i.isLt]
    exact Vector.getElem_ofFn i.isLt
  · rw [hdma]
    rfl

/-- Settles O20: the stack is outside the window, so a pop reads the cell the push before it wrote. -/
theorem pushThenPop : Obligations.PushThenPop := by
  intro v s
  have hinc : BitVec.ofNat 8 (s.SP.toNat + 1) = s.SP + 1 := by bv_omega
  have hdec : BitVec.ofNat 8 (s.SP.toNat + 255) = s.SP - 1 := by bv_omega
  rw [hinc, hdec, pop_push, pop_eq, stackAddr_eq_stackCell]
  exact ⟨push_eq_memWrite v s, rfl, rfl, rfl⟩

/-- Settles O19: the word of two bytes is 256 times the high one plus the low one. -/
theorem wordReadIsLittleEndian : Obligations.WordReadIsLittleEndian := by
  intro a s
  have hnext : BitVec.ofNat 16 ((a.toNat + 1) % 65536) = a + 1 := by bv_omega
  simp only [hnext, memReadWord, mkWord_eq_wordOf, wordOf]

/-- Settles O54: only the test of the address can stop a host call; past it the call is the bus access. -/
theorem hostCallsCheckTheAddress : Obligations.HostCallsCheckTheAddress := by
  intro a v s
  refine ⟨fun hout => ?_, fun h0 h1 => ⟨BitVec.ofInt 16 a, ?_, ?_⟩⟩
  · simp only [hostLoadByte, hostLoadWord, hostStoreByte, hostAddress_out hout, and_self]
  · rw [BitVec.toNat_ofInt]
    omega
  · simp only [hostLoadByte, hostLoadWord, hostStoreByte, hostAddress_in h0 h1, loByte_eq_lowOf,
      hiByte_eq_highOf, and_self]

end Sys2Proof.Proofs
end

section
/-! SUPPORT. Opcode bytes as forms: the metadata table, `assemble` and `encode` describe one set of 151 forms of
instruction, each with an opcode byte and a number of operand bytes (R121 to R125). The decoder, the fetch and the
well-formedness of bytes are then stated by form. -/

namespace Sys2Proof.Machine

/-- The opcode byte `opc` is followed by `n` operand bytes, stands for the instruction `form b1 b2` when these are `b1` and
`b2`, and that instruction is encoded by it and them (R121, R124, R125). -/
structure IsForm (opc : Byte) (n : Nat) (form : Byte → Byte → Instr) : Prop where
  populated : ∃ sl, metadata opc = some sl ∧ sl.mode.operandBytes = n
  assembles : ∀ b1 b2, assemble opc b1 b2 = some (form b1 b2)
  encodes : ∀ b1 b2, encode (form b1 b2) = opc :: [b1, b2].take n

theorem operandBytes_le_two (md : Mode) : md.operandBytes ≤ 2 := by
  cases md <;> decide

theorem encode_eq_cons (i : Instr) : ∃ operands, encode i = i.opcode :: operands := by
  cases i <;> exact ⟨_, rfl⟩

/-! ## Every instruction and every populated slot has a form -/

/-- The bytes of an instruction give its form; a word operand is put together again from its two bytes (R124). -/
theorem exists_isForm_of_encode {i : Instr} {opc : Byte} {operands : List Byte} (h : encode i = opc :: operands) :
    ∃ form, IsForm opc operands.length form ∧ form (operands.getD 0 0) (operands.getD 1 0) = i := by
  cases i <;> cases h
  all_goals
    refine ⟨_, ⟨⟨_, rfl, rfl⟩, fun _ _ => rfl, fun _ _ => ?_⟩, ?_⟩
    · simp [encode]
    · simp

/-- A populated slot assembles to an instruction of its own opcode byte: the table and the encoder agree. -/
theorem opcode_assemble_zero :
    ∀ opc : Byte, (metadata opc).isSome = true → (assemble opc 0 0).map Instr.opcode = some opc := by
  decide +kernel

theorem exists_isForm_of_metadata {opc : Byte} {sl : Slot} (h : metadata opc = some sl) :
    ∃ form, IsForm opc sl.mode.operandBytes form := by
  obtain ⟨i, -, rfl⟩ := Option.map_eq_some_iff.mp (opcode_assemble_zero opc (by simp [h]))
  obtain ⟨operands, henc⟩ := encode_eq_cons i
  obtain ⟨form, hform, -⟩ := exists_isForm_of_encode henc
  obtain ⟨sl', hm, hn⟩ := hform.populated
  cases h.symm.trans hm
  exact ⟨form, hn ▸ hform⟩

/-- The table is empty at the bytes that R136 lists. -/
theorem metadata_eq_none_iff : ∀ opc : Byte, metadata opc = none ↔ opc.toNat ∈ emptyOpcodes := by
  decide +kernel

section
variable {opc : Byte} {operands : List Byte} {form : Byte → Byte → Instr}

theorem IsForm.length_le_two (h : IsForm opc operands.length form) : operands.length ≤ 2 := by
  obtain ⟨sl, -, hn⟩ := h.populated
  exact hn ▸ operandBytes_le_two sl.mode

/-- The instruction of an opcode byte and its operand bytes is encoded by these bytes. -/
theorem IsForm.encode_eq (h : IsForm opc operands.length form) :
    encode (form (operands.getD 0 0) (operands.getD 1 0)) = opc :: operands := by
  have hle := h.length_le_two
  rw [h.encodes]
  match operands with
  | [] | [_] | [_, _] => rfl
  | _ :: _ :: _ :: _ => simp at hle

/-! ## The decoder by form -/

/-- An opcode byte with its operand bytes decodes, whatever follows (R126, R127). -/
theorem IsForm.decode_append (h : IsForm opc operands.length form) (rest : List Byte) :
    decode (opc :: (operands ++ rest)) = some (form (operands.getD 0 0) (operands.getD 1 0), rest) := by
  have hle := h.length_le_two
  obtain ⟨sl, hm, hn⟩ := h.populated
  match operands with
  | [] | [_] | [_, _] => simp [decode, decodeOr, hm, hn, h.assembles, Except.toOption]
  | _ :: _ :: _ :: _ => simp at hle

theorem decode_of_metadata_none (h : metadata opc = none) (bytes : List Byte) : decode (opc :: bytes) = none := by
  simp [decode, decodeOr, h, Except.toOption]

/-- Too few operand bytes decode to nothing (R127). -/
theorem decode_of_length_lt {sl : Slot} (h : metadata opc = some sl) {bytes : List Byte}
    (hlt : bytes.length < sl.mode.operandBytes) : decode (opc :: bytes) = none := by
  have hle := operandBytes_le_two sl.mode
  simp only [decode, decodeOr, h]
  match hn : sl.mode.operandBytes, bytes with
  | 1, [] | 2, [] | 2, [_] => rfl
  | 0, _ | 1, _ :: _ | 2, _ :: _ :: _ => simp [hn] at hlt
  | n + 3, _ => omega

/-- Bytes that decode are an opcode byte, its operand bytes, and the bytes left over. -/
theorem exists_isForm_of_decode {bytes rest : List Byte} {i : Instr} (h : decode bytes = some (i, rest)) :
    ∃ opc operands form, bytes = opc :: (operands ++ rest) ∧ IsForm opc operands.length form ∧
      form (operands.getD 0 0) (operands.getD 1 0) = i := by
  cases bytes with
  | nil => cases h
  | cons opc bytes =>
    cases hm : metadata opc with
    | none => cases (decode_of_metadata_none hm bytes).symm.trans h
    | some sl =>
      rcases lt_or_ge bytes.length sl.mode.operandBytes with hlt | hge
      · cases (decode_of_length_lt hm hlt).symm.trans h
      · obtain ⟨form, hform⟩ := exists_isForm_of_metadata hm
        rw [← List.length_take_of_le hge] at hform
        have hdec := hform.decode_append (bytes.drop sl.mode.operandBytes)
        rw [List.take_append_drop] at hdec
        cases hdec.symm.trans h
        exact ⟨opc, _, form, by rw [List.take_append_drop], hform, rfl⟩

/-- Well-formed bytes are an opcode byte and as many operand bytes as its form has (R123, R136). -/
theorem wellFormedBytes_cons_iff :
    wellFormedBytes (opc :: operands) = true ↔ ∃ form, IsForm opc operands.length form := by
  have hempty := metadata_eq_none_iff opc
  cases hm : metadata opc with
  | none =>
    have hmem : opc.toNat ∈ emptyOpcodes := hempty.mp hm
    refine iff_of_false (by simp [wellFormedBytes, populatedOpcode, hmem]) ?_
    rintro ⟨form, ⟨sl, hsl, -⟩, -, -⟩
    cases hm.symm.trans hsl
  | some sl =>
    have hmem : opc.toNat ∉ emptyOpcodes := fun h => by cases (hempty.mpr h).symm.trans hm
    have hwf : wellFormedBytes (opc :: operands) = true ↔ operands.length = sl.mode.operandBytes := by
      simp [wellFormedBytes, populatedOpcode, operandCountFits, hmem, hm]
    rw [hwf]
    constructor
    · intro hlen
      rw [hlen]
      exact exists_isForm_of_metadata hm
    · rintro ⟨form, ⟨sl', hsl, hn⟩, -, -⟩
      cases hm.symm.trans hsl
      exact hn.symm

end

/-! ## The fetch by form -/

/-- The reads after the opcode byte (R127, R128): the operand bytes are the first of the two bytes that follow, and the
second of these is read by the modes with two operand bytes alone. -/
theorem fetchOperands_eq (md : Mode) (s : State) :
    let r1 := memRead (s.PC + 1) s
    let r2 := memRead (s.PC + 2) r1.2
    let operands := [r1.1, r2.1].take md.operandBytes
    fetchOperands md s =
      (operands.getD 0 0, operands.getD 1 0, if md.operandBytes = 2 then r2.2 else r1.2) := by
  cases md <;> rfl

/-- The opcode byte of an empty slot stops the fetch (R136, R321). -/
theorem fetch_of_metadata_none {s : State} (h : metadata (memRead s.PC s).1 = none) :
    fetch s = .fault (.invalidOpcode s.PC (memRead s.PC s).1) := by
  simp [fetch, h]

/-- The fetch of a populated slot gives the instruction of its form (R126, R127). -/
theorem fetch_of_isForm {s : State} {sl : Slot} {n : Nat} {form : Byte → Byte → Instr}
    (hm : metadata (memRead s.PC s).1 = some sl) (h : IsForm (memRead s.PC s).1 n form) :
    fetch s =
      (let b := fetchOperands sl.mode (memRead s.PC s).2
       .next (form b.1 b.2.1, b.2.2)) := by
  simp [fetch, hm, h.assembles]

/-- A fetch gives the instruction that the three bytes at PC decode to, after the reads its length calls for. -/
theorem fetch_of_decode {s : State} {i : Instr} {rest : List Byte} :
    let r0 := memRead s.PC s
    let r1 := memRead (s.PC + 1) r0.2
    let r2 := memRead (s.PC + 2) r1.2
    decode [r0.1, r1.1, r2.1] = some (i, rest) →
      fetch s = .next (i, if i.length = 3 then r2.2 else r1.2) := by
  intro r0 r1 r2 hdec
  obtain ⟨opc, operands, form, hbytes, hform, rfl⟩ := exists_isForm_of_decode hdec
  obtain ⟨rfl, htail⟩ := List.cons.inj hbytes
  obtain ⟨sl, hm, hn⟩ := hform.populated
  have htake : [r1.1, r2.1].take sl.mode.operandBytes = operands := by
    rw [htail, hn, List.take_left]
  have hlength : (form (operands.getD 0 0) (operands.getD 1 0)).length = 3 ↔ sl.mode.operandBytes = 2 := by
    rw [Instr.length, hform.encode_eq, List.length_cons, hn]
    omega
  have hreads := fetchOperands_eq sl.mode r0.2
  rw [memRead_PC] at hreads
  rw [fetch_of_isForm hm hform, hreads]
  simp only [hlength, htake, r0, r1, r2]

/-! ## The boundary test -/

/-- An interrupt is taken exactly when a Reset or NMI is pending, or an IRQ that I does not hold back (R333, R334). -/
theorem selectInterrupt_isSome_iff (s : State) :
    (selectInterrupt s).isSome = true ↔
      s.pendReset = true ∨ s.pendNMI = true ∨ (s.pendIRQ = true ∧ s.I = false) := by
  cases hr : s.pendReset <;> cases hn : s.pendNMI <;> simp [selectInterrupt, hr, hn, Config.irqMasking]

end Sys2Proof.Machine

namespace Sys2Proof.Proofs

open Sys2Proof.Machine Sys2Proof.Spec

/-- Settles O1: the encoding of an instruction is the opcode byte of its form and its operand bytes. -/
theorem decodeOfEncode : Obligations.DecodeOfEncode := by
  intro i rest
  obtain ⟨operands, henc⟩ := encode_eq_cons i
  obtain ⟨form, hform, hi⟩ := exists_isForm_of_encode henc
  rw [henc, List.cons_append, hform.decode_append, hi]

/-- Settles O2: bytes that decode are those of a form, which encodes to them. -/
theorem encodeOfDecode : Obligations.EncodeOfDecode := by
  intro bytes rest i h
  obtain ⟨opc, operands, form, rfl, hform, rfl⟩ := exists_isForm_of_decode h
  rw [hform.encode_eq, List.cons_append]

/-- Settles O3: both sides say that the bytes are the opcode byte of a form and its operand bytes. -/
theorem wellFormedBytesAreEncodings : Obligations.WellFormedBytesAreEncodings := by
  intro bytes
  constructor
  · intro h
    cases bytes with
    | nil => cases h
    | cons opc operands =>
      obtain ⟨form, hform⟩ := wellFormedBytes_cons_iff.mp h
      exact ⟨_, hform.encode_eq.symm⟩
  · rintro ⟨i, rfl⟩
    obtain ⟨operands, henc⟩ := encode_eq_cons i
    obtain ⟨form, hform, -⟩ := exists_isForm_of_encode henc
    rw [henc]
    exact wellFormedBytes_cons_iff.mpr ⟨form, hform⟩

/-- Settles O4: the listed bytes are the empty slots; a populated slot has a form, and every instruction completes. -/
theorem emptySlotsFault : Obligations.EmptySlotsFault := by
  refine ⟨rfl, fun s => ⟨fun hmem => ?_, fun hmem => ?_⟩⟩
  · rw [step, fetch_of_metadata_none ((metadata_eq_none_iff _).mpr hmem)]
  · obtain ⟨sl, hm⟩ := Option.ne_none_iff_exists'.mp (hmem ∘ (metadata_eq_none_iff _).mp)
    obtain ⟨form, hform⟩ := exists_isForm_of_metadata hm
    obtain ⟨-, f, -, -, hf⟩ := exec_shape (form _ _)
    exact ⟨_, step_of_fetch (fetch_of_isForm hm hform) (hf _)⟩

/-- Settles O5: each row's bytes are the encoding of its instruction. -/
theorem customarySyntaxExamplesDecode : Obligations.CustomarySyntaxExamplesDecode :=
  ⟨decodeOfEncode .clc [], decodeOfEncode .aslAcc [], decodeOfEncode (.ldaImm 0x10) [], decodeOfEncode (.ldaZp 0x10) [],
    decodeOfEncode (.ldaZpx 0x10) [], decodeOfEncode (.ldxZpy 0x10) [], decodeOfEncode (.ldaAbs 0x1234) [],
    decodeOfEncode (.ldaAbx 0x1234) [], decodeOfEncode (.ldaAby 0x1234) [], decodeOfEncode (.jmpInd 0x1234) [],
    decodeOfEncode (.ldaIzx 0x10) [], decodeOfEncode (.ldaIzy 0x10) [], decodeOfEncode (.beq 0x0E) []⟩

/-- Settles O6: the fetch gives the instruction that the bytes decode to, and the step runs it; it completes. -/
theorem stepRunsDecodedInstruction : Obligations.StepRunsDecodedInstruction := by
  intro s i rest r0 r1 r2 hdec
  obtain ⟨-, f, -, -, hf⟩ := exec_shape i
  rw [step_of_fetch (fetch_of_decode hdec) (hf _), hf]

/-- Settles O56: the step services an interrupt exactly under the boundary test's condition. -/
theorem cyclesOfAStep : Obligations.CyclesOfAStep := by
  intro s t u i hfetch hexec
  refine ⟨step_of_fetch hfetch hexec, ?_⟩
  simp only [stepCycles, hfetch, hexec, selectInterrupt_isSome_iff, Config.serviceCycles]

end Sys2Proof.Proofs
end

section
/-! SUPPORT. Operand resolution as numbers (R160 to R173): zero-page addresses and pointers, the sum of a base and an
index, and the boundary-cross report of a mode with a base in two forms, by the high byte and by the low byte. -/

namespace Sys2Proof.Machine

/-! ## Addresses as numbers -/

theorem toNat_zeroPage (b : Byte) : (zeroPage b).toNat = b.toNat := by
  simp [zeroPage, toNat_mkWord]

theorem zeroPage_eq_ofNat (b : Byte) : zeroPage b = BitVec.ofNat 16 b.toNat :=
  BitVec.eq_of_toNat_eq (by rw [toNat_zeroPage, BitVec.toNat_ofNat]; omega)

theorem toNat_hiByte (w : Word) : (hiByte w).toNat = w.toNat / 256 := by
  rw [hiByte_eq_highOf, Spec.highOf, BitVec.toNat_ofNat]
  omega

/-- A base and an index (R170, R173): the sum is taken modulo 65536 (D4). -/
theorem toNat_add_index (base : Word) (index : Byte) :
    (base + index.setWidth 16).toNat = (base.toNat + index.toNat) % 65536 := by
  have : index.toNat % 2 ^ 16 = index.toNat := Nat.mod_eq_of_lt (by omega)
  rw [BitVec.toNat_add, BitVec.toNat_setWidth, this]

/-- A pointer in the zero page (R172, R173) from a number that is its place modulo 256: both bytes lie in page 0 (D6). -/
theorem toNat_zeroPagePointer {z : Byte} {n : Nat} (hz : z.toNat = n % 256) (s : State) :
    (zeroPagePointer z s).1.toNat =
      (peek s (BitVec.ofNat 16 ((n + 1) % 256))).toNat * 256 + (peek s (BitVec.ofNat 16 (n % 256))).toNat := by
  have hnext : (z + 1).toNat = (n + 1) % 256 := by
    rw [BitVec.toNat_add, hz]
    exact (Nat.add_mod n 1 256).symm
  rw [zeroPagePointer_eq, toNat_mkWord, zeroPage_eq_ofNat, zeroPage_eq_ofNat, hz, hnext]

/-! ## The boundary-cross report -/

/-- Adding an index changes the high byte of the base when it makes the low byte overflow, also where the sum wraps. -/
theorem highByte_changes_iff {base index : Nat} (hbase : base < 65536) (hindex : index < 256) :
    (base + index) % 65536 / 256 ≠ base / 256 ↔ 256 ≤ base % 256 + index := by
  omega

section
variable {m : MemOperand} {s : State} {base : Word} {index : Byte}

/-- The report of a mode with a base, as R161 states it: the high byte of the sum differs from that of the base. -/
theorem crosses_eq (hbase : indexBase m s = some base) (hea : (effectiveAddr m s).1 = base + index.setWidth 16) :
    crosses m s = decide ((base.toNat + index.toNat) % 65536 / 256 ≠ base.toNat / 256) := by
  simp only [crosses, hbase, hea]
  rw [Bool.eq_iff_iff, bne_iff_ne, decide_eq_true_iff, ne_comm, ne_eq, ← BitVec.toNat_inj, toNat_hiByte, toNat_hiByte,
    toNat_add_index]

/-- The same report by the low byte of the base. -/
theorem crosses_iff (hbase : indexBase m s = some base) (hea : (effectiveAddr m s).1 = base + index.setWidth 16) :
    crosses m s = true ↔ 256 ≤ base.toNat % 256 + index.toNat := by
  rw [crosses_eq hbase hea, decide_eq_true_iff]
  exact highByte_changes_iff base.isLt index.isLt

/-- A mode without a base never reports (R161). -/
theorem crosses_of_indexBase_none (hbase : indexBase m s = none) : crosses m s = false := by
  simp only [crosses, hbase]

end

end Sys2Proof.Machine

namespace Sys2Proof.Proofs

open Sys2Proof.Machine Sys2Proof.Spec

/-- Settles O21: a zero-page address is its byte, so its sums wrap at 256; an absolute sum wraps at 65536. -/
theorem directEffectiveAddresses : Obligations.DirectEffectiveAddresses := by
  intro b w s
  refine ⟨toNat_zeroPage b, ?_, ?_, rfl, toNat_add_index w s.X, toNat_add_index w s.Y, crosses_eq rfl rfl,
    crosses_eq rfl rfl⟩
  · exact (toNat_zeroPage (b + s.X)).trans (BitVec.toNat_add b s.X)
  · exact (toNat_zeroPage (b + s.Y)).trans (BitVec.toNat_add b s.Y)

/-- Settles O22: the pointer's place is b + X or b modulo 256, and its value is the base of the indirect-indexed sum. -/
theorem indirectEffectiveAddresses : Obligations.IndirectEffectiveAddresses := by
  intro b s pointer
  have hpointer : (zeroPagePointer b s).1.toNat = pointer b.toNat :=
    toNat_zeroPagePointer (Nat.mod_eq_of_lt b.isLt).symm s
  refine ⟨toNat_zeroPagePointer (BitVec.toNat_add b s.X) s, ?_, crosses_of_indexBase_none rfl, ?_,
    fun m => effectiveAddr_state m s⟩
  · rw [← hpointer]
    exact toNat_add_index (zeroPagePointer b s).1 s.Y
  · rw [← hpointer]
    exact crosses_eq rfl rfl

/-- Settles O23: the high byte changes exactly on a carry out of the low byte; the low byte of a pointer is the byte
at its place in page 0. -/
theorem crossingIsLowByteOverflow : Obligations.CrossingIsLowByteOverflow := by
  intro b w s
  have hlow : (zeroPagePointer b s).1.toNat % 256 = (peek s (BitVec.ofNat 16 b.toNat)).toNat := by
    rw [zeroPagePointer_eq, toNat_mkWord, zeroPage_eq_ofNat b]
    omega
  refine ⟨crosses_iff rfl rfl, crosses_iff rfl rfl, ?_, ?_⟩
  · rw [← hlow]
    exact crosses_iff rfl rfl
  · refine ⟨?_, ?_, ?_, ?_, ?_⟩ <;> exact crosses_of_indexBase_none rfl

end Sys2Proof.Proofs
end

section
/-! SUPPORT. The instructions that read an operand, by form: the encoding of a form comes from its slot of the metadata
table, its result from one read and one act on the registers (R174). Then addition with carry (R190, R191) as numbers:
the flags it leaves, by the unsigned sum, by the bits of the operands and by the signed sum. -/

namespace Sys2Proof.Machine

open Sys2Proof.Spec

/-! ## Forms -/

/-- The form `f` is encoded as it says in every state, has the length that `len` gives its operand, and its instruction
does `op` with that operand. -/
structure Runs {α : Type} (op : α → State → State) (len : α → Nat) (f : Form α) : Prop where
  encoded : ∀ s, f.encoded s
  exec_eq : ∀ s, exec f.instr s = .next (op f.operand s)
  length_eq : f.length = len f.operand

/-- The cycle count of an instruction that is not a branch (R139): the model fixes `DMA_CYCLES` at 0, so a
store costs nothing more. -/
theorem cycles_of_slot {i : Instr} {sl : Slot} (hslot : i.slot? = some sl)
    (hbranch : ∀ s, branchCondition? sl.mnemonic s = none) (s : State) :
    Instr.cycles i s = sl.baseCycles + (if sl.extraCycle = true ∧
      (memOperand? sl.mode ((encode i).getD 1 0) ((encode i).getD 2 0)).any (crosses · s) = true then 1 else 0) := by
  simp [Instr.cycles, hslot, instrCycles, hbranch, Config.dmaCycles]

/-- A form that is not a branch is encoded as it says when its columns are those of its instruction's slot and the
operand bytes give its memory operand. -/
theorem encoded_of_slot {α : Type} {f : Form α} {mn : Mnemonic} {md : Mode}
    (hslot : f.instr.slot? = some { mnemonic := mn, mode := md, baseCycles := f.base, extraCycle := f.extra })
    (hbranch : ∀ s, branchCondition? mn s = none) (hopcode : f.instr.opcode = f.opcode)
    (hlength : f.instr.length = f.length)
    (hmem : memOperand? md ((encode f.instr).getD 1 0) ((encode f.instr).getD 2 0) = f.mem) (s : State) :
    f.encoded s := by
  refine ⟨hopcode, hlength, ?_⟩
  rw [cycles_of_slot hslot hbranch, hmem]

theorem adcForms_run {b : Byte} {w : Word} {f : Form Source} (hf : f ∈ adcForms b w) : Runs adc sourceLength f := by
  fin_cases hf <;>
    exact ⟨encoded_of_slot rfl (fun _ => rfl) rfl rfl (by simp [encode, memOperand?]), fun _ => rfl, rfl⟩

theorem sbcForms_run {b : Byte} {w : Word} {f : Form Source} (hf : f ∈ sbcForms b w) : Runs sbc sourceLength f := by
  fin_cases hf <;>
    exact ⟨encoded_of_slot rfl (fun _ => rfl) rfl rfl (by simp [encode, memOperand?]), fun _ => rfl, rfl⟩

/-! ## Operations that read their operand -/

@[simp] theorem stateOf_A (src : Source) (s : State) : (stateOf src s).A = s.A := by
  rw [stateOf, loadOperand_state]
@[simp] theorem stateOf_C (src : Source) (s : State) : (stateOf src s).C = s.C := by
  rw [stateOf, loadOperand_state]
@[simp] theorem stateOf_PC (src : Source) (s : State) : (stateOf src s).PC = s.PC := by
  rw [stateOf, loadOperand_state]

/-- The length increment (R37) as a number. -/
theorem advance_eq_pcAfter (n : Nat) (s : State) : advance n s = { s with PC := pcAfter n s } := by
  simp [advance, pcAfter, BitVec.ofNat_add]

/-- An operation on the registers after the read of its operand: PC advances from the state before. -/
theorem readOperand_eq {act : Byte → State → State} (hact : ∀ m t, (act m t).PC = t.PC) (src : Source) (s : State) :
    readOperand src act s =
      { act (byteOf src s) (stateOf src s) with PC := pcAfter (sourceLength src) s } := by
  have hPC : (act (byteOf src s) (stateOf src s)).PC = s.PC := by rw [hact, stateOf_PC]
  rw [readOperand, advance_eq_pcAfter]
  simp only [pcAfter, ← hPC]
  rfl

/-- The state after an addition whose second operand came from `src`: ADC and SBC differ in the sum alone. -/
def afterSum (src : Source) (r : AluSum) (s : State) : State :=
  { stateOf src s with
    A := r.value
    C := r.carry
    V := r.overflow
    Z := r.value == 0
    N := r.value.getLsbD 7
    PC := pcAfter (sourceLength src) s }

theorem adc_eq (src : Source) (s : State) : adc src s = afterSum src (addWithCarry s.A (byteOf src s) s.C) s := by
  rw [adc, readOperand_eq (by intros; rfl), stateOf_A, stateOf_C]
  rfl

theorem sbc_eq (src : Source) (s : State) :
    sbc src s = afterSum src (addWithCarry s.A (byteOf src s ^^^ 0xFF#8) s.C) s := by
  rw [sbc, readOperand_eq (by intros; rfl), stateOf_A, stateOf_C]
  rfl

/-! ## Bits of a byte -/

theorem getLsbD_seven_eq (v : Byte) : v.getLsbD 7 = decide (128 ≤ v.toNat) := BitVec.getLsbD_last v

theorem and_bit7_ne_zero_iff (v : Byte) : v &&& 0x80#8 ≠ 0#8 ↔ v.getLsbD 7 = true := by
  have h : v &&& 0x80#8 = if v.getLsbD 7 then 0x80#8 else 0#8 := BitVec.and_twoPow v 7
  rw [h]
  cases v.getLsbD 7 <;> decide

/-- Z and N (R175) of a byte given by a number. -/
theorem ofNat_beq_zero (n : Nat) : (BitVec.ofNat 8 n == 0) = decide (n % 256 = 0) := by
  rw [Bool.eq_iff_iff, beq_iff_eq, decide_eq_true_iff, ← BitVec.toNat_inj]
  rfl

theorem ofNat_getLsbD_seven (n : Nat) : (BitVec.ofNat 8 n).getLsbD 7 = decide (128 ≤ n % 256) := by
  rw [getLsbD_seven_eq, BitVec.toNat_ofNat]

/-! ## Addition with carry -/

section
variable (a m : Byte) (c : Bool)

theorem bitOf_one_eq_toNat : bitOf c 1 = c.toNat := by cases c <;> rfl

theorem addWithCarry_value : (addWithCarry a m c).value = BitVec.ofNat 8 (a.toNat + m.toNat + bitOf c 1) := by
  rw [bitOf_one_eq_toNat]
  rfl

theorem addWithCarry_carry : (addWithCarry a m c).carry = decide (255 < a.toNat + m.toNat + bitOf c 1) := by
  rw [bitOf_one_eq_toNat]
  rfl

/-- The overflow: the operands have one sign, and the result has the other (R190). -/
theorem addWithCarry_overflow : (addWithCarry a m c).overflow =
    ((a.getLsbD 7 == m.getLsbD 7) && ((addWithCarry a m c).value.getLsbD 7 != a.getLsbD 7)) := rfl

/-- R190's two forms of the sign rule, on the sign bits of the operands and of the result. -/
theorem sign_rule_iff_xor :
    ∀ x y r : Bool, ((x == y) && (r != x)) = true ↔ ((x ^^ r) && (y ^^ r)) = true := by decide

/-- The overflow in the bitwise form of R190. -/
theorem addWithCarry_overflow_eq_bitwise : (addWithCarry a m c).overflow =
    decide ((a ^^^ (addWithCarry a m c).value) &&& (m ^^^ (addWithCarry a m c).value) &&& 0x80#8 ≠ 0#8) := by
  rw [addWithCarry_overflow, Bool.eq_iff_iff, decide_eq_true_iff, and_bit7_ne_zero_iff, BitVec.getLsbD_and,
    BitVec.getLsbD_xor, BitVec.getLsbD_xor]
  exact sign_rule_iff_xor _ _ _

/-- The overflow says that the signed sum leaves -128 to 127. -/
theorem addWithCarry_overflow_eq_signed : (addWithCarry a m c).overflow =
    decide (a.toInt + m.toInt + bitOf c 1 < -128 ∨ 127 < a.toInt + m.toInt + bitOf c 1) := by
  have hc : bitOf c 1 ≤ 1 := by cases c <;> decide
  rw [addWithCarry_overflow, addWithCarry_value, ofNat_getLsbD_seven, getLsbD_seven_eq, getLsbD_seven_eq,
    BitVec.toInt_eq_toNat_cond, BitVec.toInt_eq_toNat_cond, Bool.eq_iff_iff]
  simp only [Bool.and_eq_true, beq_iff_eq, bne_iff_ne, ne_eq, decide_eq_decide, decide_eq_true_iff]
  split <;> split <;> omega

/-! ## Subtraction as the addition of the complement -/

theorem xor_ff_eq_not : m ^^^ 0xFF#8 = ~~~m := BitVec.xor_allOnes

/-- The sum with the complement is 256 more than the difference with borrow (R191). -/
theorem toNat_add_complement :
    ((a.toNat + (m ^^^ 0xFF#8).toNat + bitOf c 1 : Nat) : Int) = a.toNat - m.toNat - (1 - bitOf c 1) + 256 := by
  rw [xor_ff_eq_not, BitVec.toNat_not]
  omega

theorem toInt_add_complement :
    a.toInt + (m ^^^ 0xFF#8).toInt + bitOf c 1 = a.toInt - m.toInt - (1 - bitOf c 1) := by
  rw [xor_ff_eq_not, BitVec.toInt_eq_toNat_cond (~~~m), BitVec.toInt_eq_toNat_cond m, BitVec.toNat_not]
  split <;> split <;> omega

end

/-- The byte and the flags of a sum that is 256 more than a difference. -/
theorem difference_of_sum {n : Nat} {d : Int} (h : (n : Int) = d + 256) :
    BitVec.ofNat 8 n = BitVec.ofInt 8 d ∧ (255 < n ↔ 0 ≤ d) ∧ (n % 256 = 0 ↔ d % 256 = 0) ∧
      (128 ≤ n % 256 ↔ 128 ≤ d % 256) := by
  refine ⟨?_, by omega, by omega, by omega⟩
  apply BitVec.eq_of_toNat_eq
  rw [BitVec.toNat_ofNat, BitVec.toNat_ofInt]
  omega

end Sys2Proof.Machine

namespace Sys2Proof.Proofs

open Sys2Proof.Machine Sys2Proof.Spec

/-- Settles O24: each form adds its operand and the carry to A; the sign rule is read off bit 7 of the two
exclusive-ors. -/
theorem adcResult : Obligations.AdcResult := by
  intro b w s f hf
  obtain ⟨hencoded, hexec, hlength⟩ := adcForms_run hf
  refine ⟨hencoded s, ?_⟩
  rw [hexec, adc_eq, hlength]
  simp only [afterSum, addWithCarry_overflow_eq_bitwise, addWithCarry_value, addWithCarry_carry, ofNat_beq_zero,
    ofNat_getLsbD_seven]

/-- Settles O25: each form adds the complement of its operand and the carry to A, which is the difference with borrow
plus 256 as unsigned numbers and the difference itself as signed ones. -/
theorem sbcResult : Obligations.SbcResult := by
  intro b w s f hf
  obtain ⟨hencoded, hexec, hlength⟩ := sbcForms_run hf
  refine ⟨hencoded s, ?_⟩
  obtain ⟨hvalue, hcarry, hzero, hnegative⟩ :=
    difference_of_sum (toNat_add_complement s.A (byteOf f.operand s) s.C)
  rw [hexec, sbc_eq, hlength]
  rw [afterSum, addWithCarry_overflow_eq_signed, toInt_add_complement, addWithCarry_carry, addWithCarry_value,
    ofNat_beq_zero, ofNat_getLsbD_seven, hvalue]
  simp only [hcarry, hzero, hnegative]

end Sys2Proof.Proofs
end

section
/-! SUPPORT. The logical instructions and the shifts (R200 to R207): the state after each as one update, and the outcome
of a shift or a rotate as a number. Then the nine bits of the carry and A as a ring, which ROL of the accumulator turns
by one place (R205). -/

namespace Sys2Proof.Machine

open Sys2Proof.Spec

/-! ## Forms -/

theorem logicForms_run {b : Byte} {w : Word} :
    (∀ f ∈ andForms b w, Runs andOp sourceLength f) ∧ (∀ f ∈ oraForms b w, Runs ora sourceLength f) ∧
      ∀ f ∈ eorForms b w, Runs eor sourceLength f := by
  refine ⟨?_, ?_, ?_⟩ <;> intro f hf <;> fin_cases hf <;>
    exact ⟨encoded_of_slot rfl (fun _ => rfl) rfl rfl (by simp [encode, memOperand?]), fun _ => rfl, rfl⟩

theorem shiftForms_run {b : Byte} {w : Word} :
    (∀ f ∈ aslForms b w, Runs asl placeLength f) ∧ (∀ f ∈ lsrForms b w, Runs lsr placeLength f) ∧
      (∀ f ∈ rolForms b w, Runs rol placeLength f) ∧ ∀ f ∈ rorForms b w, Runs ror placeLength f := by
  refine ⟨?_, ?_, ?_, ?_⟩ <;> intro f hf <;> fin_cases hf <;>
    exact ⟨encoded_of_slot rfl (fun _ => rfl) rfl rfl (by simp [encode, memOperand?]), fun _ => rfl, rfl⟩

/-! ## Logic -/

/-- Z (R175) of a byte as a number. -/
theorem beq_zero_eq (v : Byte) : (v == 0) = decide (v.toNat = 0) := by
  rw [Bool.eq_iff_iff, beq_iff_eq, decide_eq_true_iff, ← BitVec.toNat_inj]
  rfl

theorem logic_eq (op : Byte → Byte → Byte) (src : Source) (s : State) :
    logic op src s = { stateOf src s with
      A := op s.A (byteOf src s)
      Z := decide ((op s.A (byteOf src s)).toNat = 0)
      N := decide (128 ≤ (op s.A (byteOf src s)).toNat)
      PC := pcAfter (sourceLength src) s } := by
  rw [logic, readOperand_eq (by intros; rfl), stateOf_A, setZN, beq_zero_eq, getLsbD_seven_eq]

/-- What a form of AND, ORA or EOR does, when the operation on bytes is one on each bit. -/
theorem logicForm_result {op : Byte → Byte → Byte} {bit : Bool → Bool → Bool} {f : Form Source}
    (hop : ∀ x y k, (op x y).getLsbD k = bit (x.getLsbD k) (y.getLsbD k)) (hf : Runs (logic op) sourceLength f)
    (s : State) :
    f.encoded s ∧
      ∃ r : Byte, (∀ k : Nat, k < 8 → r.getLsbD k = bit (s.A.getLsbD k) ((byteOf f.operand s).getLsbD k)) ∧
        exec f.instr s = .next { stateOf f.operand s with
          A := r, Z := decide (r.toNat = 0), N := decide (128 ≤ r.toNat), PC := pcAfter f.length s } := by
  refine ⟨hf.encoded s, op s.A (byteOf f.operand s), fun k _ => hop _ _ k, ?_⟩
  rw [hf.exec_eq, hf.length_eq, logic_eq]

/-! ## The state after a shift or a rotate -/

theorem memWrite_withC (a : Word) (v : Byte) (s : State) (c : Bool) :
    memWrite a v { s with C := c } = { memWrite a v s with C := c } := by
  rw [memWrite_congr a v (s := s) (t := { s with C := c }) rfl rfl]
  conv_rhs => rw [memWrite_state]

/-- The carry is set before the result is stored, but the store neither sees nor changes it. -/
theorem shift_eq (op : Byte → Bool → Shifted) (p : Place) (s : State) :
    shift op p s =
      { placeWritten p (op (placeByte p s) s.C).value s with
        C := (op (placeByte p s) s.C).out
        Z := (op (placeByte p s) s.C).value == 0
        N := (op (placeByte p s) s.C).value.getLsbD 7
        PC := pcAfter (placeLength p) s } := by
  rw [shift, modifyOperand, advance_eq_pcAfter]
  cases p with
  | acc => rfl
  | mem m =>
    simp only [loadPlace_mem, storeResult, memWrite_withC, memRead_C]
    simp [placeWritten, placeByte, setZN, pcAfter]

/-! ## The outcome of a shift or a rotate as a number -/

section
variable (v : Byte) (c : Bool)

theorem toNat_flagBit_zero : (flagBit c 0).toNat = bitOf c 1 := by cases c <;> rfl

theorem toNat_flagBit_seven : (flagBit c 7).toNat = bitOf c 128 := by cases c <;> rfl

theorem ofNat_mod_256 (n : Nat) : BitVec.ofNat 8 (n % 256) = BitVec.ofNat 8 n :=
  BitVec.eq_of_toNat_eq (Nat.mod_mod n 256)

/-- The bit that enters on the right falls on a place the shift has emptied, so the `or` is a sum. -/
theorem shiftLeft_value : (shiftLeft v c).value = BitVec.ofNat 8 (2 * v.toNat + bitOf c 1) := by
  have hdisjoint : (v <<< 1) &&& flagBit c 0 = 0#8 := by
    ext i hi
    by_cases h0 : i = 0 <;> simp [getElem_flagBit, h0]
  rw [shiftLeft, ← BitVec.add_eq_or_of_and_eq_zero _ _ hdisjoint]
  apply BitVec.eq_of_toNat_eq
  rw [BitVec.toNat_add, BitVec.toNat_shiftLeft, toNat_flagBit_zero, BitVec.toNat_ofNat, Nat.shiftLeft_eq]
  omega

/-- The same on the left. -/
theorem shiftRight_value : (shiftRight v c).value = BitVec.ofNat 8 (v.toNat / 2 + bitOf c 128) := by
  have hdisjoint : (v >>> 1) &&& flagBit c 7 = 0#8 := by
    ext i hi
    by_cases h7 : i = 7 <;> simp [getElem_flagBit, h7]
  rw [shiftRight, ← BitVec.add_eq_or_of_and_eq_zero _ _ hdisjoint]
  apply BitVec.eq_of_toNat_eq
  rw [BitVec.toNat_add, BitVec.toNat_ushiftRight, toNat_flagBit_seven, BitVec.toNat_ofNat, Nat.shiftRight_eq_div_pow]

theorem shiftLeft_out : (shiftLeft v c).out = decide (128 ≤ v.toNat) := getLsbD_seven_eq v

theorem shiftRight_out : (shiftRight v c).out = decide (v.toNat % 2 = 1) := by
  rw [shiftRight, BitVec.getLsbD, Nat.testBit_zero]

/-- The number of a right shift is a byte. -/
theorem rightShifted_lt : v.toNat / 2 + bitOf c 128 < 256 := by
  unfold bitOf
  split <;> omega

/-- Its sign is the bit that entered. -/
theorem rightShifted_sign : decide (128 ≤ v.toNat / 2 + bitOf c 128) = c := by
  cases c with
  | false => exact decide_eq_false (show ¬128 ≤ v.toNat / 2 + 0 by omega)
  | true => exact decide_eq_true (Nat.le_add_left 128 _)

end

/-- A shift to the left with `cin` entering, as numbers. -/
theorem shift_left_eq (cin : Bool → Bool) (p : Place) (s : State) :
    shift (fun v c => shiftLeft v (cin c)) p s =
      { placeWritten p (BitVec.ofNat 8 (2 * (placeByte p s).toNat + bitOf (cin s.C) 1)) s with
        C := decide (128 ≤ (placeByte p s).toNat)
        Z := decide ((2 * (placeByte p s).toNat + bitOf (cin s.C) 1) % 256 = 0)
        N := decide (128 ≤ (2 * (placeByte p s).toNat + bitOf (cin s.C) 1) % 256)
        PC := pcAfter (placeLength p) s } := by
  simp only [shift_eq, shiftLeft_value, shiftLeft_out, ofNat_beq_zero, ofNat_getLsbD_seven]

/-- A shift to the right with `cin` entering, as numbers: N is the bit that enters. -/
theorem shift_right_eq (cin : Bool → Bool) (p : Place) (s : State) :
    shift (fun v c => shiftRight v (cin c)) p s =
      { placeWritten p (BitVec.ofNat 8 ((placeByte p s).toNat / 2 + bitOf (cin s.C) 128)) s with
        C := decide ((placeByte p s).toNat % 2 = 1)
        Z := decide ((placeByte p s).toNat / 2 + bitOf (cin s.C) 128 = 0)
        N := cin s.C
        PC := pcAfter (placeLength p) s } := by
  simp only [shift_eq, shiftRight_value, shiftRight_out, ofNat_beq_zero, ofNat_getLsbD_seven,
    Nat.mod_eq_of_lt (rightShifted_lt _ _), rightShifted_sign]

/-! ## The ring of the carry and A -/

/-- Bit `k` of the ring of nine bits that ROL turns: A below, the carry above it, and A's bit 0 again after
the carry. -/
def carryRing (s : State) (k : Nat) : Bool := (BitVec.cons s.C s.A).getLsbD (k % 9)

theorem carryRing_of_lt (s : State) {k : Nat} (hk : k < 8) : carryRing s k = s.A.getLsbD k := by
  rw [carryRing, Nat.mod_eq_of_lt (by omega), BitVec.getLsbD_cons, if_neg (by omega)]

theorem carryRing_eight (s : State) : carryRing s 8 = s.C := by
  rw [carryRing, Nat.mod_eq_of_lt (by omega), BitVec.getLsbD_cons, if_pos rfl]

theorem carryRing_mod_nine (s : State) (k : Nat) : carryRing s (k % 9) = carryRing s k := by
  rw [carryRing, carryRing, Nat.mod_mod]

theorem carryRing_add_nine (s : State) (k : Nat) : carryRing s (k + 9) = carryRing s k := by
  rw [carryRing, carryRing, Nat.add_mod_right]

/-- Equal rings are equal bytes in A and equal carries. -/
theorem eq_of_carryRing_eq {s t : State} (h : carryRing s = carryRing t) : s.A = t.A ∧ s.C = t.C := by
  refine ⟨BitVec.eq_of_getLsbD_eq fun k hk => ?_, ?_⟩
  · rw [← carryRing_of_lt s hk, h, carryRing_of_lt t hk]
  · rw [← carryRing_eight s, h, carryRing_eight t]

/-- The bits after ROL (R205): the carry in bit 0, every other bit from its right neighbour. -/
theorem shiftLeft_value_getLsbD (v : Byte) (c : Bool) {k : Nat} (hk : k < 8) :
    (shiftLeft v c).value.getLsbD k = if k = 0 then c else v.getLsbD (k - 1) := by
  have hc : (flagBit c 0).getLsbD k = (c && decide (k = 0)) := getElem_flagBit c 0 hk
  rw [shiftLeft, BitVec.getLsbD_or, BitVec.getLsbD_shiftLeft, hc]
  by_cases h0 : k = 0 <;> simp [h0, hk]

/-- ROL moves every bit of the ring one place up: A's bits 0 to 6 inside A, bit 7 to the carry, the carry to bit 0. -/
theorem carryRing_rol (s : State) (k : Nat) : carryRing (rol .acc s) (k + 1) = carryRing s k := by
  have hA : (rol .acc s).A = (shiftLeft s.A s.C).value := rfl
  have hC : (rol .acc s).C = s.A.getLsbD 7 := rfl
  rw [← carryRing_mod_nine, ← carryRing_mod_nine s]
  obtain hk | hk | hk : k % 9 < 7 ∨ k % 9 = 7 ∨ k % 9 = 8 := by omega
  · rw [show (k + 1) % 9 = k % 9 + 1 by omega, carryRing_of_lt _ (by omega), carryRing_of_lt _ (by omega), hA,
      shiftLeft_value_getLsbD _ _ (by omega), if_neg (by omega), Nat.add_sub_cancel]
  · rw [show (k + 1) % 9 = 8 by omega, hk, carryRing_eight, hC, carryRing_of_lt _ (by omega)]
  · rw [show (k + 1) % 9 = 0 by omega, hk, carryRing_eight, carryRing_of_lt _ (by omega), hA,
      shiftLeft_value_getLsbD _ _ (by omega), if_pos rfl]

theorem carryRing_iterate_rol (n : Nat) (s : State) (k : Nat) :
    carryRing ((rol .acc)^[n] s) (k + n) = carryRing s k := by
  induction n with
  | zero => rfl
  | succ n ih => rw [Function.iterate_succ_apply', ← Nat.add_assoc, carryRing_rol, ih]

end Sys2Proof.Machine

namespace Sys2Proof.Proofs

open Sys2Proof.Machine Sys2Proof.Spec

/-- Settles O26: AND, ORA and EOR of two bytes act on each bit alone. -/
theorem logicResult : Obligations.LogicResult := by
  intro b w s g hg f hf
  obtain ⟨hand, hora, heor⟩ := logicForms_run (b := b) (w := w)
  fin_cases hg
  · exact logicForm_result (fun _ _ _ => BitVec.getLsbD_and) (hand f hf) s
  · exact logicForm_result (fun _ _ _ => BitVec.getLsbD_or) (hora f hf) s
  · exact logicForm_result (fun _ _ _ => BitVec.getLsbD_xor) (heor f hf) s

/-- Settles O27: ASL and LSR are the shifts into which a 0 enters. -/
theorem shiftResult : Obligations.ShiftResult := by
  intro b w s
  obtain ⟨hasl, hlsr, -, -⟩ := shiftForms_run (b := b) (w := w)
  refine ⟨fun f hf => ?_, fun f hf => ?_⟩
  · obtain ⟨hencoded, hexec, hlength⟩ := hasl f hf
    rw [hexec, hlength]
    exact ⟨hencoded s, congrArg _ (shift_left_eq (fun _ => false) f.operand s)⟩
  · obtain ⟨hencoded, hexec, hlength⟩ := hlsr f hf
    rw [hexec, hlength]
    exact ⟨hencoded s, congrArg _ (shift_right_eq (fun _ => false) f.operand s)⟩

/-- Settles O28: ROL and ROR are the shifts into which the carry enters. -/
theorem rotateResult : Obligations.RotateResult := by
  intro b w s
  obtain ⟨-, -, hrol, hror⟩ := shiftForms_run (b := b) (w := w)
  refine ⟨fun f hf => ?_, fun f hf => ?_⟩
  · obtain ⟨hencoded, hexec, hlength⟩ := hrol f hf
    simp only [hexec, hlength, ofNat_mod_256]
    exact ⟨hencoded s, congrArg _ (shift_left_eq id f.operand s)⟩
  · obtain ⟨hencoded, hexec, hlength⟩ := hror f hf
    rw [hexec, hlength]
    exact ⟨hencoded s, congrArg _ (shift_right_eq id f.operand s)⟩

/-- Settles O29: nine turns of a ring of nine bits bring every bit back to its place. -/
theorem nineRotationsRestore : Obligations.NineRotationsRestore := by
  intro s
  refine ⟨fun i => (rol .acc)^[i] s, rfl, fun i _ => ?_, ?_⟩
  · exact congrArg _ (Function.iterate_succ_apply' _ i s).symm
  · have hturned : carryRing ((rol .acc)^[9] s) = carryRing s :=
      funext fun k => (carryRing_add_nine _ k).symm.trans (carryRing_iterate_rol 9 s k)
    exact eq_of_carryRing_eq hturned

end Sys2Proof.Proofs
end

section
/-! SUPPORT. The compares and BIT (R220 to R223): the flags each leaves as numbers and bits, and the state after each
form. Then R224: the operand does not depend on A and C, and the flags of a compare are those of the difference without
borrow. -/

namespace Sys2Proof.Machine

open Sys2Proof.Spec

/-! ## Forms -/

theorem compareBitForms_run {b : Byte} {w : Word} :
    (∀ f ∈ cmpForms b w, Runs cmp sourceLength f) ∧ (∀ f ∈ cpxForms b w, Runs cpx sourceLength f) ∧
      (∀ f ∈ cpyForms b w, Runs cpy sourceLength f) ∧ ∀ f ∈ bitForms b w, Runs bitOp sourceLength f := by
  refine ⟨?_, ?_, ?_, ?_⟩ <;> intro f hf <;> fin_cases hf <;>
    exact ⟨encoded_of_slot rfl (fun _ => rfl) rfl rfl (by simp [encode, memOperand?]), fun _ => rfl, rfl⟩

@[simp] theorem stateOf_X (src : Source) (s : State) : (stateOf src s).X = s.X := by
  rw [stateOf, loadOperand_state]
@[simp] theorem stateOf_Y (src : Source) (s : State) : (stateOf src s).Y = s.Y := by
  rw [stateOf, loadOperand_state]

/-! ## Compare -/

/-- N of a compare: 256 is added before the subtraction, so that it is one of natural numbers. -/
theorem sub_getLsbD_seven (r m : Byte) : (r - m).getLsbD 7 = decide (128 ≤ (256 + r.toNat - m.toNat) % 256) := by
  have hnumber : 2 ^ 8 - m.toNat + r.toNat = 256 + r.toNat - m.toNat := by omega
  rw [getLsbD_seven_eq, BitVec.toNat_sub, hnumber]

/-- The flags of a compare as numbers (R220 to R222). -/
theorem compareFlags_eq (r m : Byte) (s : State) :
    compareFlags r m s = { s with
      C := decide (m.toNat ≤ r.toNat)
      Z := decide (r.toNat = m.toNat)
      N := decide (128 ≤ (256 + r.toNat - m.toNat) % 256) } := by
  simp only [compareFlags, sub_getLsbD_seven, beq_eq_decide, BitVec.toNat_inj]

/-- What a form of a compare does, whichever register it compares: reading the operand does not change the register. -/
theorem compareForm_result {op : Source → State → State} {reg : State → Byte} {f : Form Source}
    (hop : ∀ src s, op src s = readOperand src (fun m t => compareFlags (reg t) m t) s)
    (hreg : ∀ src s, reg (stateOf src s) = reg s) (hf : Runs op sourceLength f) (s : State) :
    f.encoded s ∧
      (let m := byteOf f.operand s
       exec f.instr s = .next { stateOf f.operand s with
         C := decide (m.toNat ≤ (reg s).toNat), Z := decide ((reg s).toNat = m.toNat),
         N := decide (128 ≤ (256 + (reg s).toNat - m.toNat) % 256), PC := pcAfter f.length s }) := by
  refine ⟨hf.encoded s, ?_⟩
  rw [hf.exec_eq, hf.length_eq, hop, readOperand_eq (by intros; rfl), hreg, compareFlags_eq]

/-! ## BIT -/

/-- Z of BIT: two bytes have no common bit. -/
theorem and_beq_zero_eq (a m : Byte) :
    ((a &&& m) == 0) = decide (∀ k : Fin 8, (a.getLsbD k && m.getLsbD k) = false) := by
  rw [beq_eq_decide, decide_eq_decide]
  refine ⟨fun h k => ?_, fun h => BitVec.eq_of_getLsbD_eq fun k hk => ?_⟩
  · rw [← BitVec.getLsbD_and, h]
    exact BitVec.getLsbD_zero
  · rw [BitVec.getLsbD_and, h ⟨k, hk⟩]
    exact BitVec.getLsbD_zero.symm

theorem getLsbD_six_eq (v : Byte) : v.getLsbD 6 = decide (64 ≤ v.toNat % 128) := by
  rw [BitVec.getLsbD, Nat.testBit_eq_decide_div_mod_eq, decide_eq_decide]
  omega

/-- The state after BIT (R223): Z from the AND, N and V from the operand. -/
theorem bitOp_eq (src : Source) (s : State) :
    bitOp src s = { stateOf src s with
      Z := decide (∀ k : Fin 8, (s.A.getLsbD k && (byteOf src s).getLsbD k) = false)
      N := decide (128 ≤ (byteOf src s).toNat)
      V := decide (64 ≤ (byteOf src s).toNat % 128)
      PC := pcAfter (sourceLength src) s } := by
  rw [bitOp, readOperand_eq (by intros; rfl), stateOf_A, bitFlags, and_beq_zero_eq, getLsbD_seven_eq, getLsbD_six_eq]

/-! ## A compare and an SBC -/

/-- The operand is found through X, Y, storage and the device alone. -/
theorem byteOf_withAC (src : Source) (s : State) (a : Byte) (c : Bool) :
    byteOf src { s with A := a, C := c } = byteOf src s := by
  cases src with
  | imm b1 => rfl
  | mem m =>
    have haddr : (effectiveAddr m { s with A := a, C := c }).1 = (effectiveAddr m s).1 := by
      cases m <;> simp only [effectiveAddr, zeroPagePointer_eq] <;> rfl
    rw [byteOf, byteOf, loadOperand_mem, loadOperand_mem, haddr,
      memRead_congr (effectiveAddr m s).1 (s := s) (t := { s with A := a, C := c }) rfl rfl]

/-- The flags of a compare are those of SBC's difference (R191) with C = 1, which takes no borrow (R224). -/
theorem compare_iff_difference {r m : Byte} {d : Int} (hd : d = r.toNat - m.toNat - (1 - bitOf true 1)) :
    (m.toNat ≤ r.toNat ↔ 0 ≤ d) ∧ (r.toNat = m.toNat ↔ d % 256 = 0) ∧
      (128 ≤ (256 + r.toNat - m.toNat) % 256 ↔ 128 ≤ d % 256) := by
  have hborrow : bitOf true 1 = 1 := rfl
  omega

end Sys2Proof.Machine

namespace Sys2Proof.Proofs

open Sys2Proof.Machine Sys2Proof.Spec

/-- Settles O30: the three compares are one operation on three registers. -/
theorem compareResult : Obligations.CompareResult := by
  intro b w s g hg f hf
  obtain ⟨hcmp, hcpx, hcpy, -⟩ := compareBitForms_run (b := b) (w := w)
  fin_cases hg
  · exact compareForm_result (fun _ _ => rfl) stateOf_A (hcmp f hf) s
  · exact compareForm_result (fun _ _ => rfl) stateOf_X (hcpx f hf) s
  · exact compareForm_result (fun _ _ => rfl) stateOf_Y (hcpy f hf) s

/-- Settles O31: Z looks at the bits common to A and the operand, N and V at bits 7 and 6 of the operand. -/
theorem bitResult : Obligations.BitResult := by
  intro b w s f hf
  obtain ⟨-, -, -, hbit⟩ := compareBitForms_run (b := b) (w := w)
  obtain ⟨hencoded, hexec, hlength⟩ := hbit f hf
  refine ⟨hencoded s, ?_⟩
  rw [hexec, hlength, bitOp_eq]

/-- Settles O32: both read the same byte, and with C = 1 the SBC leaves the flags of the difference without borrow. -/
theorem compareIsSbcFlags : Obligations.CompareIsSbcFlags := by
  intro b w s g hg f hf f' hf' hoperand
  obtain ⟨-, hcompare⟩ := compareResult b w s g hg f hf
  obtain ⟨-, hsbc⟩ := sbcResult b w { s with A := g.1, C := true } f' hf'
  refine ⟨_, _, hcompare, hsbc, ?_⟩
  simp only [← hoperand, byteOf_withAC, decide_eq_decide]
  exact compare_iff_difference rfl

end Sys2Proof.Proofs
end

section
/-! SUPPORT. The branches and JMP (R230 to R239): the operand byte as a signed offset, the page test of a taken branch
as numbers, and what the eight branches have in common. Then the pointer reads of JMP indirect, both in one page (R171,
D7). -/

namespace Sys2Proof.Machine

open Sys2Proof.Spec

/-! ## The offset of a branch -/

/-- An operand byte as a signed offset (R12, R168). -/
theorem toInt_eq_sext8 (b : Byte) : b.toInt = sext8 b := by
  rw [BitVec.toInt_eq_toNat_cond, sext8]
  split <;> split <;> omega

/-- PC plus the offset of a branch, before the length increment (R230). -/
theorem add_signExtend_eq_ofInt (pc : Word) (b : Byte) :
    pc + b.signExtend 16 = BitVec.ofInt 16 (pc.toNat + sext8 b) := by
  rw [BitVec.signExtend, toInt_eq_sext8, BitVec.ofInt_add, BitVec.ofInt_natCast, BitVec.ofNat_toNat,
    BitVec.setWidth_eq]

/-- The state after a branch (R230): the length increment applies whether it is taken or not. -/
theorem branch_eq_ofInt (cond : Bool) (b : Byte) (s : State) :
    branch cond b s = { s with
      PC := if cond then BitVec.ofInt 16 (s.PC.toNat + sext8 b + 2) else pcAfter 2 s } := by
  rw [branch_eq, add_signExtend_eq_ofInt]
  cases cond with
  | false => exact advance_eq_pcAfter 2 s
  | true =>
    rw [BitVec.ofInt_add _ 2]
    rfl

/-- The page test of a taken branch (R230, D25) by the address before the length increment. -/
theorem branchCrosses_iff (b : Byte) (s : State) :
    branchCrosses b s = true ↔ ((s.PC.toNat + sext8 b) % 65536) / 256 ≠ (s.PC.toNat : Int) / 256 := by
  have hcross : branchCrosses b s = (hiByte (s.PC + b.signExtend 16) != hiByte s.PC) := rfl
  rw [hcross, bne_iff_ne, ne_eq, ← BitVec.toNat_inj, toNat_hiByte, toNat_hiByte, add_signExtend_eq_ofInt,
    BitVec.toNat_ofInt]
  omega

/-! ## The eight branches -/

/-- The cycle count of a branch (R139, R230): a relative operand has no memory operand, so only the branch itself can
add to the base. -/
theorem cycles_of_branch {i : Instr} {mn : Mnemonic} {s : State} {cond : Bool}
    (hslot : i.slot? = some { mnemonic := mn, mode := .rel, baseCycles := 2, extraCycle := false })
    (hcond : branchCondition? mn s = some cond) :
    Instr.cycles i s = if cond then (if branchCrosses ((encode i).getD 1 0) s then 4 else 3) else 2 := by
  simp only [Instr.cycles, hslot, instrCycles, memOperand?, hcond]
  cases cond with
  | false => simp
  | true => cases branchCrosses ((encode i).getD 1 0) s <;> simp

/-- In state `s` the form `f` with operand `b` is a branch on its condition: its slot, its bytes and its meaning. -/
structure RunsBranch (b : Byte) (s : State) (f : BranchForm) : Prop where
  slot : ∃ mn, f.instr.slot? = some { mnemonic := mn, mode := .rel, baseCycles := 2, extraCycle := false } ∧
    branchCondition? mn s = some f.cond
  encode_eq : encode f.instr = [f.opcode, b]
  exec_eq : exec f.instr s = .next (branch f.cond b s)

theorem branchForms_run {b : Byte} {s : State} {f : BranchForm} (hf : f ∈ branchForms b s) : RunsBranch b s f := by
  fin_cases hf <;> exact ⟨⟨_, rfl, rfl⟩, rfl, rfl⟩

/-! ## The pointer of JMP indirect -/

/-- The second pointer byte as a number (D7): only the low byte of the pointer is incremented. -/
theorem mkWord_hiByte_succ_loByte (ptr : Word) : mkWord (hiByte ptr) (loByte ptr + 1) = samePageNext ptr := by
  have hlow : (lowOf ptr + 1).toNat = (ptr.toNat + 1) % 256 := by
    rw [BitVec.toNat_add, lowOf, BitVec.toNat_ofNat]
    exact Nat.mod_add_mod ptr.toNat 256 1
  rw [mkWord_eq_wordOf, wordOf, toNat_hiByte, loByte_eq_lowOf, hlow, samePageNext]

/-- The target of JMP indirect and the state after its two reads (R171). -/
theorem indirectTarget_eq (ptr : Word) (s : State) :
    indirectTarget ptr s =
      (wordOf (memRead (samePageNext ptr) (memRead ptr s).2).1 (memRead ptr s).1,
        (memRead (samePageNext ptr) (memRead ptr s).2).2) := by
  rw [← mkWord_hiByte_succ_loByte, ← mkWord_eq_wordOf]
  rfl

end Sys2Proof.Machine

namespace Sys2Proof.Proofs

open Sys2Proof.Machine Sys2Proof.Spec

/-- Settles O33: the eight branches are one operation on eight conditions. -/
theorem branchResult : Obligations.BranchResult := by
  intro b s f hf
  obtain ⟨⟨mn, hslot, hcond⟩, hencode, hexec⟩ := branchForms_run hf
  refine ⟨hencode, hexec.trans (congrArg _ (branch_eq_ofInt f.cond b s)), ?_⟩
  have hoperand : (encode f.instr).getD 1 0 = b := by rw [hencode]; rfl
  rw [cycles_of_branch hslot hcond, hoperand]
  simp only [branchCrosses_iff]

/-- Settles O34: the target of JMP indirect comes from two reads in one page; neither form costs more than its base. -/
theorem jmpResult : Obligations.JmpResult := by
  intro w s
  rw [← loByte_eq_lowOf, ← hiByte_eq_highOf]
  refine ⟨⟨rfl, rfl, ?_⟩, rfl, ?_, ?_⟩
  · exact (cycles_of_slot (i := .jmpAbs w) rfl (fun _ => rfl) s).trans rfl
  · exact congrArg (fun target => Host.Outcome.next (jmp target)) (indirectTarget_eq w s)
  · exact (cycles_of_slot (i := .jmpInd w) rfl (fun _ => rfl) s).trans rfl

end Sys2Proof.Proofs
end

section
/-! SUPPORT. The stack and subroutine instructions (R250 to R257): the stack cells as places of storage, pushes and pulls
as the rules write them, and entering a handler, whose vector lies above every cell that its pushes write. -/

namespace Sys2Proof.Machine

open Sys2Proof.Spec

/-! ## Cycles -/

/-- An instruction that is not a branch and has no extra cycle costs its base cycles (R139). -/
theorem cycles_of_slot_base {i : Instr} {mn : Mnemonic} {md : Mode} {base : Nat}
    (hslot : i.slot? = some { mnemonic := mn, mode := md, baseCycles := base, extraCycle := false })
    (hbranch : ∀ s, branchCondition? mn s = none) (s : State) : Instr.cycles i s = base := by
  simp [cycles_of_slot hslot hbranch]

/-! ## Words, PC and the flags as numbers -/

theorem toNat_highOf_lowOf (w : Word) : (highOf w).toNat * 256 + (lowOf w).toNat = w.toNat := by
  rw [← toNat_mkWord, ← hiByte_eq_highOf, ← loByte_eq_lowOf, mkWord_hiByte_loByte]

theorem PC_add_eq_pcAfter (n : Nat) (s : State) : s.PC + BitVec.ofNat 16 n = pcAfter n s :=
  congrArg State.PC (advance_eq_pcAfter n s)

theorem setZN_eq (v : Byte) (s : State) :
    setZN v s = { s with Z := decide (v.toNat = 0), N := decide (128 ≤ v.toNat) } := by
  rw [setZN, beq_zero_eq, getLsbD_seven_eq]

theorem getLsbD_eq_bitAt (p : Byte) (k : Nat) : p.getLsbD k = bitAt p k :=
  Nat.testBit_eq_decide_div_mod_eq

/-- The seven flags of a pulled status byte (R47). -/
theorem unpackFlags_eq (p : Byte) (s : State) :
    unpackFlags p s = { s with
      N := bitAt p 7, V := bitAt p 6, B := bitAt p 4, D := bitAt p 3, I := bitAt p 2, Z := bitAt p 1, C := bitAt p 0 } := by
  simp only [unpackFlags, getLsbD_eq_bitAt]

/-! ## The stack cells -/

@[simp] theorem inWindow_stackCell (sp : Byte) : inWindow (stackCell sp) = false := by
  rw [← stackAddr_eq_stackCell, inWindow_stackAddr]

/-- The stack is the second page of the RAM, which no mirror moves (R34, R72). -/
theorem phys_stackCell (sp : Byte) : phys (stackCell sp) = 0x100 + sp.toNat := by
  rw [phys_eq, stackCell, BitVec.toNat_ofNat]
  split <;> omega

/-- Different stack pointers name different cells. -/
theorem phys_stackCell_inj {sp sp' : Byte} : phys (stackCell sp) = phys (stackCell sp') ↔ sp = sp' := by
  rw [phys_stackCell, phys_stackCell, Nat.add_left_cancel_iff, BitVec.toNat_inj]

/-! ## Pushes and pulls -/

/-- Pushing a word is the two writes of R92. -/
theorem pushWord_eq_wordPushed (w : Word) (s : State) : pushWord w s = wordPushed w s := by
  have hSP : s.SP - 1#8 - 1#8 = s.SP - 2#8 := sub_sub _ _ _
  simp [pushWord, wordPushed, push_eq, memWrite_storage, stackAddr_eq_stackCell, loByte_eq_lowOf, hiByte_eq_highOf, hSP]

/-- The cells a pushed word lands in: the high byte at the old SP, the low byte one below. -/
theorem peek_wordPushed (w : Word) (s : State) :
    peek (wordPushed w s) (stackCell s.SP) = highOf w ∧ peek (wordPushed w s) (stackCell (s.SP - 1)) = lowOf w := by
  have hne : s.SP ≠ s.SP - 1#8 := by bv_omega
  simp [wordPushed, memWrite_storage, peek, Memory.get_set, phys_stackCell_inj, hne]

/-- RTS (R255): the popped word and its own length increment. -/
theorem rtsOp_eq (s : State) :
    rtsOp s = { s with
      SP := s.SP + 2
      PC := BitVec.ofNat 16
        ((peek s (stackCell (s.SP + 2))).toNat * 256 + (peek s (stackCell (s.SP + 1))).toNat + 1) } := by
  rw [rtsOp, popWord_eq, advance_eq_pcAfter]
  simp only [pcAfter, jumpTo, toNat_mkWord, stackAddr_eq_stackCell]

/-! ## Entering a handler -/

/-- A cell above the stack page holds after the entry sequence what it held before (R257, R335). -/
theorem peek_enterHandler_of_lt {a : Word} (ha : 0x1FF < phys a) (vector ret : Word) (brk : Bool) (s : State) :
    peek (enterHandler vector ret brk s) a = peek s a := by
  refine enterHandler_storesOnly vector ret brk a fun b hb => ?_
  have hcell : ∃ sp, b = stackCell sp := by
    fin_cases hb <;> exact ⟨_, rfl⟩
  obtain ⟨sp, rfl⟩ := hcell
  rw [phys_stackCell]
  omega

/-- The entry sequence for BRK, NMI and IRQ (R257, R335): the vector is read after the pushes, which do not reach it. -/
theorem enterHandler_eq_entered {vector : Word} (h : vector = nmiVector ∨ vector = irqVector) (ret : Word) (brk : Bool)
    (s : State) : enterHandler vector ret brk s = entered vector ret brk s := by
  obtain ⟨habove, haboveNext⟩ : 0x1FF < phys vector ∧ 0x1FF < phys (vector + 1) := by
    rcases h with rfl | rfl <;> decide
  have hlo := peek_enterHandler_of_lt habove vector ret brk s
  have hhi := peek_enterHandler_of_lt haboveNext vector ret brk s
  rw [enterHandler_eq h] at hlo hhi ⊢
  simp only [peek] at hlo hhi
  simp only [hlo, hhi]
  simp only [packFlags_eq_statusByte, mkWord_eq_wordOf, pushedFrame, stackAddr_eq_stackCell, loByte_eq_lowOf,
    hiByte_eq_highOf, entered, wordPushed, memWrite_storage (inWindow_stackCell _)]
  rfl

end Sys2Proof.Machine

namespace Sys2Proof.Proofs

open Sys2Proof.Machine Sys2Proof.Spec

/-- Settles O35: PHP is a push from the state in which B is set; the store does not see B. -/
theorem pushInstructions : Obligations.PushInstructions := by
  intro s
  refine ⟨⟨rfl, cycles_of_slot_base rfl (fun _ => rfl) s, ?_⟩, rfl, cycles_of_slot_base rfl (fun _ => rfl) s, ?_⟩
  · refine congrArg Host.Outcome.next (?_ : pha s = _)
    rw [pha, advance_eq_pcAfter, push_eq_memWrite]
    simp [pcAfter]
  · refine congrArg Host.Outcome.next (?_ : php s = _)
    rw [php, advance_eq_pcAfter, push_eq_memWrite, packFlags_eq_statusByte]
    simp only [memWrite_storage (inWindow_stackCell _)]
    rfl

/-- Settles O36: both read the cell above SP; PLA takes Z and N from the byte, PLP every flag from its bits. -/
theorem pullInstructions : Obligations.PullInstructions := by
  intro s p
  refine ⟨⟨rfl, cycles_of_slot_base rfl (fun _ => rfl) s, ?_⟩, rfl, cycles_of_slot_base rfl (fun _ => rfl) s, ?_⟩
  · refine congrArg Host.Outcome.next (?_ : pla s = _)
    rw [pla, advance_eq_pcAfter, setZN_eq, pop_eq, stackAddr_eq_stackCell]
    rfl
  · refine congrArg Host.Outcome.next (?_ : plp s = _)
    rw [plp, advance_eq_pcAfter, unpackFlags_eq, pop_eq, stackAddr_eq_stackCell]
    rfl

/-- Settles O37: PC + 2 is pushed as a word, and PC takes the target. -/
theorem jsrResult : Obligations.JsrResult := by
  intro w s
  rw [← loByte_eq_lowOf, ← hiByte_eq_highOf, ← PC_add_eq_pcAfter, ← pushWord_eq_wordPushed]
  exact ⟨rfl, cycles_of_slot_base rfl (fun _ => rfl) s, rfl⟩

/-- Settles O38: the length increment of RTS itself is the 1 that is added to the popped word. -/
theorem rtsResult : Obligations.RtsResult := fun s =>
  ⟨rfl, cycles_of_slot_base rfl (fun _ => rfl) s, congrArg _ (rtsOp_eq s)⟩

/-- Settles O39: the flags come from the first byte above SP, PC from the two after it. -/
theorem rtiResult : Obligations.RtiResult := by
  intro s p
  refine ⟨rfl, cycles_of_slot_base rfl (fun _ => rfl) s, congrArg Host.Outcome.next ?_⟩
  rw [returnFromHandler_eq, unpackFlags_eq, mkWord_eq_wordOf]
  simp only [stackAddr_eq_stackCell, p]

/-- Settles O40: BRK is the entry sequence with PC + 2 as return address; it does not look at I. -/
theorem brkResult : Obligations.BrkResult := by
  intro s
  refine ⟨rfl, cycles_of_slot_base rfl (fun _ => rfl) s, congrArg Host.Outcome.next ?_⟩
  rw [← PC_add_eq_pcAfter]
  exact enterHandler_eq_entered (.inr rfl) _ true s

/-- Settles O41: the two cells that RTS reads are those JSR wrote, and the word in them is the address before the next
instruction's. -/
theorem jsrRtsRoundTrip : Obligations.JsrRtsRoundTrip := by
  intro w s u
  obtain ⟨-, -, hjsr⟩ := jsrResult w s
  obtain ⟨-, -, hrts⟩ := rtsResult u
  obtain ⟨hhighPushed, hlowPushed⟩ := peek_wordPushed (pcAfter 2 s) s
  refine ⟨_, hjsr, fun hSP hhigh hlow => ?_⟩
  replace hSP : u.SP = s.SP - 2 := hSP
  have hSP1 : u.SP + 1 = s.SP - 1 := by bv_omega
  have hSP2 : u.SP + 2 = s.SP := by bv_omega
  have hword : (peek u (stackCell s.SP)).toNat * 256 + (peek u (stackCell (s.SP - 1))).toNat = (pcAfter 2 s).toNat := by
    rw [hhigh.trans hhighPushed, hlow.trans hlowPushed, toNat_highOf_lowOf]
  refine ⟨_, hrts, ?_, hSP2⟩
  simp only [hSP1, hSP2, hword, pcAfter]
  bv_omega

end Sys2Proof.Proofs
end

section
/-! SUPPORT. The register transfers (R270 to R275): what the five that set Z and N do, with the flags as numbers. -/

namespace Sys2Proof.Machine

open Sys2Proof.Spec

/-- A transfer whose `put` leaves PC alone: Z and N come from the value copied, and PC advances from the state before. -/
theorem transfer_eq (v : Byte) {put : State → State} (s : State) (hPC : (put s).PC = s.PC) :
    transfer v put s =
      { put s with Z := decide (v.toNat = 0), N := decide (128 ≤ v.toNat), PC := pcAfter 1 s } := by
  rw [transfer, advance_eq_pcAfter, setZN_eq]
  simp only [pcAfter, hPC]

/-- No transfer has an extra cycle: each costs the 2 cycles of its slot. -/
theorem transfer_cycles {i : Instr} (hi : i ∈ [Instr.tax, .tay, .txa, .tya, .tsx, .txs]) (s : State) :
    Instr.cycles i s = 2 := by
  fin_cases hi <;> exact cycles_of_slot_base rfl (fun _ => rfl) s

end Sys2Proof.Machine

namespace Sys2Proof.Proofs

open Sys2Proof.Machine Sys2Proof.Spec

/-- Settles O44: five transfers are `transfer` with the register they write; TXS writes SP and leaves the flags. -/
theorem transferResult : Obligations.TransferResult := by
  intro s
  refine ⟨⟨rfl, ?tax⟩, ⟨rfl, ?tay⟩, ⟨rfl, ?txa⟩, ⟨rfl, ?tya⟩, ⟨rfl, ?tsx⟩, ⟨rfl, ?txs⟩, fun i hi => transfer_cycles hi s⟩
  case txs => exact congrArg Host.Outcome.next (advance_eq_pcAfter 1 { s with SP := s.X })
  case tax | tay | txa | tya | tsx => exact congrArg Host.Outcome.next (transfer_eq _ s rfl)

end Sys2Proof.Proofs
end

section
/-! SUPPORT. The loads and the stores (R280 to R285): what a load does with any register, and what a store does with any
byte of the core. -/

namespace Sys2Proof.Machine

open Sys2Proof.Spec

/-! ## Forms -/

theorem loadForms_run {b : Byte} {w : Word} :
    (∀ f ∈ ldaForms b w, Runs lda sourceLength f) ∧ (∀ f ∈ ldxForms b w, Runs ldx sourceLength f) ∧
      ∀ f ∈ ldyForms b w, Runs ldy sourceLength f := by
  refine ⟨?_, ?_, ?_⟩ <;> intro f hf <;> fin_cases hf <;>
    exact ⟨encoded_of_slot rfl (fun _ => rfl) rfl rfl (by simp [encode, memOperand?]), fun _ => rfl, rfl⟩

theorem storeForms_run {b : Byte} {w : Word} :
    (∀ f ∈ staForms b w, Runs sta memLength f) ∧ (∀ f ∈ stxForms b w, Runs stx memLength f) ∧
      ∀ f ∈ styForms b w, Runs sty memLength f := by
  refine ⟨?_, ?_, ?_⟩ <;> intro f hf <;> fin_cases hf <;>
    exact ⟨encoded_of_slot rfl (fun _ => rfl) rfl rfl (by simp [encode, memOperand?]), fun _ => rfl, rfl⟩

/-! ## Loads -/

/-- What a form of a load does, whichever register `put` writes: Z and N come from the byte read (R280 to R282). -/
theorem loadForm_result {op : Source → State → State} {put : Byte → State → State} {f : Form Source}
    (hop : ∀ src s, op src s = readOperand src (fun m t => setZN m (put m t)) s)
    (hput : ∀ m t, (put m t).PC = t.PC) (hf : Runs op sourceLength f) (s : State) :
    f.encoded s ∧
      (let m := byteOf f.operand s
       exec f.instr s = .next { put m (stateOf f.operand s) with
         Z := decide (m.toNat = 0), N := decide (128 ≤ m.toNat), PC := pcAfter f.length s }) := by
  refine ⟨hf.encoded s, ?_⟩
  rw [hf.exec_eq, hf.length_eq, hop, readOperand_eq (act := fun m t => setZN m (put m t)) hput, setZN_eq]

/-! ## Stores -/

/-- What a form of a store does, whichever register `reg` it stores: one write at the effective address, with no read of
the target (R283 to R286). -/
theorem storeForm_result {op : MemOperand → State → State} {reg : State → Byte} {f : Form MemOperand}
    (hop : ∀ dst s, op dst s = storeOperand dst (reg s) s) (hf : Runs op memLength f) (s : State) :
    f.encoded s ∧
      exec f.instr s =
        .next { memWrite (effectiveAddr f.operand s).1 (reg s) s with PC := pcAfter f.length s } := by
  refine ⟨hf.encoded s, ?_⟩
  rw [hf.exec_eq, hf.length_eq, hop, storeOperand_eq, advance_eq_pcAfter]
  simp only [pcAfter, memWrite_PC]

end Sys2Proof.Machine

namespace Sys2Proof.Proofs

open Sys2Proof.Machine Sys2Proof.Spec

/-- Settles O45: the three loads are one operation into three registers. -/
theorem loadResult : Obligations.LoadResult := by
  intro b w s
  obtain ⟨hlda, hldx, hldy⟩ := loadForms_run (b := b) (w := w)
  refine ⟨fun f hf => ?lda, fun f hf => ?ldx, fun f hf => ?ldy⟩
  case lda =>
    exact loadForm_result (put := fun m t => { t with A := m }) (fun _ _ => rfl) (fun _ _ => rfl) (hlda f hf) s
  case ldx =>
    exact loadForm_result (put := fun m t => { t with X := m }) (fun _ _ => rfl) (fun _ _ => rfl) (hldx f hf) s
  case ldy =>
    exact loadForm_result (put := fun m t => { t with Y := m }) (fun _ _ => rfl) (fun _ _ => rfl) (hldy f hf) s

/-- Settles O46: the three stores are one operation from three registers. -/
theorem storeResult : Obligations.StoreResult := by
  intro b w s g hg f hf
  obtain ⟨hsta, hstx, hsty⟩ := storeForms_run (b := b) (w := w)
  fin_cases hg
  · exact storeForm_result (reg := State.A) (fun _ _ => rfl) (hsta f hf) s
  · exact storeForm_result (reg := State.X) (fun _ _ => rfl) (hstx f hf) s
  · exact storeForm_result (reg := State.Y) (fun _ _ => rfl) (hsty f hf) s

end Sys2Proof.Proofs
end

section
/-! SUPPORT. The increments, the decrements and the flag instructions (R290 to R303): counting up or down is the
addition of 1 or of 255 modulo 256, in memory and in a register. -/

namespace Sys2Proof.Machine

open Sys2Proof.Spec

/-! ## Forms -/

theorem countForms_run {b : Byte} {w : Word} :
    (∀ f ∈ incForms b w, Runs incOp placeLength f) ∧ ∀ f ∈ decForms b w, Runs decOp placeLength f := by
  refine ⟨?_, ?_⟩ <;> intro f hf <;> fin_cases hf <;>
    exact ⟨encoded_of_slot rfl (fun _ => rfl) rfl rfl (by simp [encode, memOperand?]), fun _ => rfl, rfl⟩

/-! ## Counting -/

/-- A byte plus a number, modulo 256. -/
theorem add_ofNat_eq (v : Byte) (n : Nat) : v + BitVec.ofNat 8 n = BitVec.ofNat 8 ((v.toNat + n) % 256) := by
  rw [ofNat_mod_256, BitVec.ofNat_add, BitVec.ofNat_toNat, BitVec.setWidth_eq]

theorem sub_one_eq_add_255 (v : Byte) : v - 1 = v + BitVec.ofNat 8 255 := BitVec.sub_eq_add_neg v 1

/-- Z and N (R175) of a byte given by a number below 256. -/
theorem setZN_ofNat_mod (n : Nat) (s : State) :
    setZN (BitVec.ofNat 8 (n % 256)) s = { s with Z := decide (n % 256 = 0), N := decide (128 ≤ n % 256) } := by
  rw [setZN, ofNat_beq_zero, ofNat_getLsbD_seven, Nat.mod_mod]

/-- A read-modify-write that acts on its operand alone: one read, one write, Z and N, PC. -/
theorem modifyOperand_eq (op : Byte → Byte) (p : Place) (s : State) :
    modifyOperand p (fun v t => (op v, t)) s =
      { setZN (op (placeByte p s)) (placeWritten p (op (placeByte p s)) s) with PC := pcAfter (placeLength p) s } := by
  rw [modifyOperand, advance_eq_pcAfter]
  cases p with
  | acc => rfl
  | mem m => simp [loadPlace_mem, storeResult, placeWritten, placeByte, pcAfter]

/-- What a form of INC or DEC does: both add a number to the byte of their operand. -/
theorem countForm_result {op : Place → State → State} {n : Nat} {f : Form Place}
    (hop : ∀ p s, op p s = modifyOperand p (fun v t => (v + BitVec.ofNat 8 n, t)) s) (hf : Runs op placeLength f)
    (s : State) :
    f.encoded s ∧
      (let r := ((placeByte f.operand s).toNat + n) % 256
       exec f.instr s = .next { placeWritten f.operand (BitVec.ofNat 8 r) s with
         Z := decide (r = 0), N := decide (128 ≤ r), PC := pcAfter f.length s }) := by
  refine ⟨hf.encoded s, ?_⟩
  rw [hf.exec_eq, hf.length_eq, hop, modifyOperand_eq (· + BitVec.ofNat 8 n), add_ofNat_eq, setZN_ofNat_mod]

/-- Counting X, as R292 and R294 write it. -/
theorem countX_eq {v : Byte} {n : Nat} (hv : v = BitVec.ofNat 8 (n % 256)) (s : State) :
    countX v s = { s with
      X := BitVec.ofNat 8 (n % 256), Z := decide (n % 256 = 0), N := decide (128 ≤ n % 256), PC := pcAfter 1 s } := by
  rw [countX, hv, setZN_ofNat_mod, advance_eq_pcAfter]
  rfl

/-- Counting Y, as R293 and R295 write it. -/
theorem countY_eq {v : Byte} {n : Nat} (hv : v = BitVec.ofNat 8 (n % 256)) (s : State) :
    countY v s = { s with
      Y := BitVec.ofNat 8 (n % 256), Z := decide (n % 256 = 0), N := decide (128 ≤ n % 256), PC := pcAfter 1 s } := by
  rw [countY, hv, setZN_ofNat_mod, advance_eq_pcAfter]
  rfl

end Sys2Proof.Machine

namespace Sys2Proof.Proofs

open Sys2Proof.Machine Sys2Proof.Spec

/-- Settles O47: INC and DEC are one operation with the numbers 1 and 255. -/
theorem incDecMemoryResult : Obligations.IncDecMemoryResult := by
  intro b w s g hg f hf
  obtain ⟨hinc, hdec⟩ := countForms_run (b := b) (w := w)
  fin_cases hg
  · exact countForm_result (n := 1) (fun _ _ => rfl) (hinc f hf) s
  · refine countForm_result (n := 255) (fun p s => ?_) (hdec f hf) s
    simp only [decOp, sub_one_eq_add_255]

/-- Settles O48: counting a register down is counting it up by 255. -/
theorem incDecRegisterResult : Obligations.IncDecRegisterResult := by
  intro s
  refine ⟨⟨rfl, ?inx⟩, ⟨rfl, ?dex⟩, ⟨rfl, ?iny⟩, ⟨rfl, ?dey⟩, fun i hi => ?cycles⟩
  case inx => exact congrArg _ (countX_eq (add_ofNat_eq s.X 1) s)
  case dex => exact congrArg _ (countX_eq ((sub_one_eq_add_255 s.X).trans (add_ofNat_eq s.X 255)) s)
  case iny => exact congrArg _ (countY_eq (add_ofNat_eq s.Y 1) s)
  case dey => exact congrArg _ (countY_eq ((sub_one_eq_add_255 s.Y).trans (add_ofNat_eq s.Y 255)) s)
  case cycles => fin_cases hi <;> exact cycles_of_slot_base rfl (fun _ => rfl) s

/-- Settles O49: each of the eight advances PC from a state in which at most its one flag is written. -/
theorem flagInstructionsAndNop : Obligations.FlagInstructionsAndNop := by
  intro s
  refine ⟨⟨rfl, ?_⟩, ⟨rfl, ?_⟩, ⟨rfl, ?_⟩, ⟨rfl, ?_⟩, ⟨rfl, ?_⟩, ⟨rfl, ?_⟩, ⟨rfl, ?_⟩, ⟨rfl, ?_⟩,
    fun i hi => ?cycles⟩
  case cycles => fin_cases hi <;> exact cycles_of_slot_base rfl (fun _ => rfl) s
  all_goals exact congrArg Host.Outcome.next (advance_eq_pcAfter 1 _)

end Sys2Proof.Proofs
end

section
/-! SUPPORT. Interrupts and the fault (R320 to R338): the entry sequence as one update of the core, the frame of three
bytes it leaves on the stack, and what RTI makes of such a frame. -/

namespace Sys2Proof.Machine

open Sys2Proof.Spec

/-! ## The entry sequence -/

/-- The entry sequence as one update: its three stores are cells of storage (R335). -/
theorem entered_eq (vector ret : Word) (b : Bool) (s : State) :
    entered vector ret b s = { s with
      mem := Memory.set (Memory.set (Memory.set s.mem (phys (stackCell s.SP)) (highOf ret))
        (phys (stackCell (s.SP - 1))) (lowOf ret)) (phys (stackCell (s.SP - 2))) (statusByte b s)
      SP := s.SP - 3
      B := b
      I := true
      PC := wordOf (peek s (vector + 1)) (peek s vector) } := by
  simp only [entered, wordPushed, memWrite_storage (inWindow_stackCell _)]

/-- Service of an NMI (R335): the entry sequence with its latch clear. -/
theorem service_nmi_eq (s : State) :
    service .nmi s = { entered 0xFFFA s.PC false s with pendNMI := false } := by
  rw [service, enterHandler_eq_entered (.inl rfl), entered_eq, entered_eq]
  rfl

/-- Service of an IRQ (R335). -/
theorem service_irq_eq (s : State) :
    service .irq s = { entered 0xFFFE s.PC false s with pendIRQ := false } := by
  rw [service, enterHandler_eq_entered (.inr rfl), entered_eq, entered_eq]
  rfl

/-- The boundary test with a request selected services it. -/
theorem serviceInterrupt_of_some {s : State} {k : InterruptKind} (h : selectInterrupt s = some k) :
    serviceInterrupt s = service k s := by
  rw [serviceInterrupt, h]

/-! ## The frame on the stack -/

/-- The entry sequence in `s` with return address `ret` and bit 4 = `b` left `t`: SP is three lower, and the three cells
hold the return address and the status byte (R335). -/
structure LeavesFrame (ret : Word) (b : Bool) (s t : State) : Prop where
  SP : t.SP = s.SP - 3
  high : peek t (stackCell s.SP) = highOf ret
  low : peek t (stackCell (s.SP - 1)) = lowOf ret
  status : peek t (stackCell (s.SP - 2)) = statusByte b s

theorem entered_leavesFrame (vector ret : Word) (b : Bool) (s : State) :
    LeavesFrame ret b s (entered vector ret b s) := by
  have h01 : s.SP ≠ s.SP - 1#8 := by bv_omega
  have h02 : s.SP ≠ s.SP - 2#8 := by bv_omega
  have h12 : s.SP - 1#8 ≠ s.SP - 2#8 := by bv_omega
  rw [entered_eq]
  constructor <;> simp [peek, Memory.get_set, phys_stackCell_inj, h01, h02, h12]

/-- The frame is a matter of SP and storage. -/
theorem LeavesFrame.congr {ret : Word} {b : Bool} {s t t' : State} (h : LeavesFrame ret b s t) (hSP : t'.SP = t.SP)
    (hmem : t'.mem = t.mem) : LeavesFrame ret b s t' := by
  have hpeek : ∀ a, peek t' a = peek t a := fun a => by rw [peek, peek, hmem]
  exact ⟨hSP.trans h.SP, (hpeek _).trans h.high, (hpeek _).trans h.low, (hpeek _).trans h.status⟩

/-- The bits of the status byte are the flags it was made of (R46, R47). -/
theorem bitAt_statusByte (b : Bool) (s : State) :
    bitAt (statusByte b s) 7 = s.N ∧ bitAt (statusByte b s) 6 = s.V ∧ bitAt (statusByte b s) 4 = b ∧
    bitAt (statusByte b s) 3 = s.D ∧ bitAt (statusByte b s) 2 = s.I ∧ bitAt (statusByte b s) 1 = s.Z ∧
    bitAt (statusByte b s) 0 = s.C := by
  have h := unpackFlags_packFlags { s with B := b }
  rw [packFlags_eq_statusByte, unpackFlags_eq] at h
  exact ⟨congrArg State.N h, congrArg State.V h, congrArg State.B h, congrArg State.D h, congrArg State.I h,
    congrArg State.Z h, congrArg State.C h⟩

theorem wordOf_highOf_lowOf (w : Word) : wordOf (highOf w) (lowOf w) = w := by
  rw [wordOf, toNat_highOf_lowOf, BitVec.ofNat_toNat, BitVec.setWidth_eq]

end Sys2Proof.Machine

namespace Sys2Proof.Proofs

open Sys2Proof.Machine Sys2Proof.Spec

/-- Settles O52: each kind has its own latch, and setting it twice is setting it once. -/
theorem triggerSetsOneLatch : Obligations.TriggerSetsOneLatch := by
  intro k s
  refine ⟨?_, by cases k <;> rfl⟩
  cases k <;> simp [trigger]

/-- Settles O10: a populated slot lets the step complete; an empty one stops it after the one read of the opcode, which
outside the window changes nothing. -/
theorem invalidOpcodeIsTheOnlyFault : Obligations.InvalidOpcodeIsTheOnlyFault := by
  intro s
  obtain ⟨hempty, hpopulated⟩ := emptySlotsFault.2 s
  by_cases hmem : (memRead s.PC s).1.toNat ∈ emptyOpcodes
  · refine .inr ⟨(metadata_eq_none_iff _).mpr hmem, hempty hmem, memRead_state s.PC s, fun hw => ?_⟩
    have hread := memRead_storage hw s
    have hafter : afterInvalidOpcode s = s := by rw [afterInvalidOpcode, hread]
    refine ⟨hafter, ?_⟩
    rw [hafter, hempty hmem, hread]
  · exact .inl (hpopulated hmem)

/-- Settles O51: the test of the latches and of I selects the request, and its service is the entry sequence, or for a
Reset the load of PC alone. -/
theorem boundaryServesByPriority : Obligations.BoundaryServesByPriority := by
  intro s
  refine ⟨fun hreset => ?reset, fun hreset hnmi => ?nmi, fun hreset hnmi hirq hI => ?irq,
    fun hreset hnmi hmasked => ?none⟩
  case reset =>
    rw [serviceInterrupt_of_some (k := .reset) (by simp [selectInterrupt, hreset]), service, serviceReset_eq,
      mkWord_eq_wordOf]
    rfl
  case nmi =>
    rw [serviceInterrupt_of_some (k := .nmi) (by simp [selectInterrupt, hreset, hnmi]), service_nmi_eq]
  case irq =>
    rw [serviceInterrupt_of_some (k := .irq) (by simp [selectInterrupt, hreset, hnmi, hirq, hI]), service_irq_eq]
  case none =>
    have hnone : selectInterrupt s = none := by
      rcases hmasked with hirq | hI
      · simp [selectInterrupt, hreset, hnmi, hirq]
      · simp [selectInterrupt, hreset, hnmi, hI, Config.irqMasking]
    rw [serviceInterrupt, hnone]

/-- Settles O53: the step is a CLI with no change by the fetch, after which I no longer holds the IRQ back. -/
theorem cliLetsPendingIrqIn : Obligations.CliLetsPendingIrqIn := by
  intro s hstorage hcli hreset hnmi hirq
  simp only [fetchesStorage, Bool.and_eq_true, Bool.not_eq_true'] at hstorage
  obtain ⟨⟨hw0, hw1⟩, hw2⟩ := hstorage
  have hfetch : fetch s = .next (.cli, s) := by
    have h := fetch_of_decode (s := s) (i := .cli) (rest := [peek s (s.PC + 1), peek s (s.PC + 2)])
    simp only [memRead_storage hw0, memRead_storage hw1, memRead_storage hw2, hcli, ite_self] at h
    exact h (decodeOfEncode .cli [peek s (s.PC + 1), peek s (s.PC + 2)])
  obtain ⟨-, -, ⟨-, hexec⟩, -, -, -, -, -, hcycles⟩ := flagInstructionsAndNop s
  obtain ⟨hstep, hcount⟩ := cyclesOfAStep s s _ .cli hfetch hexec
  obtain ⟨-, -, hservice, -⟩ := boundaryServesByPriority { s with I := false, PC := pcAfter 1 s }
  refine ⟨?_, ?_⟩
  · rw [hstep, hservice hreset hnmi hirq rfl, entered_eq, entered_eq]
    rfl
  · rw [hcount, hcycles .cli (by simp)]
    simp [hirq]

/-- Settles O42: all three entries leave the same frame, and RTI takes it off again. -/
theorem rtiUndoesEntry : Obligations.RtiUndoesEntry := by
  intro s t u ret b hentry hSP hcells
  have hframe : LeavesFrame ret b s t := by
    rcases hentry with ⟨hbrk, rfl, rfl⟩ | ⟨rfl, rfl, rfl⟩ | ⟨rfl, rfl, rfl⟩
    · obtain ⟨-, -, hexec⟩ := brkResult s
      cases hexec.symm.trans hbrk
      exact entered_leavesFrame 0xFFFE _ true s
    · rw [service_nmi_eq]
      exact (entered_leavesFrame 0xFFFA s.PC false s).congr rfl rfl
    · rw [service_irq_eq]
      exact (entered_leavesFrame 0xFFFE s.PC false s).congr rfl rfl
  have hhigh : peek u (stackCell s.SP) = highOf ret := by simpa [hframe.high] using hcells 0 (by simp)
  have hlow : peek u (stackCell (s.SP - 1)) = lowOf ret := by rw [hcells 1 (by simp), hframe.low]
  have hstatus : peek u (stackCell (s.SP - 2)) = statusByte b s := by rw [hcells 2 (by simp), hframe.status]
  rw [hframe.SP] at hSP
  have hSP1 : u.SP + 1 = s.SP - 2 := by bv_omega
  have hSP2 : u.SP + 2 = s.SP - 1 := by bv_omega
  have hSP3 : u.SP + 3 = s.SP := by bv_omega
  obtain ⟨-, -, hrti⟩ := rtiResult u
  obtain ⟨hN, hV, hB, hD, hI, hZ, hC⟩ := bitAt_statusByte b s
  rw [hSP1, hSP2, hSP3, hhigh, hlow, hstatus, wordOf_highOf_lowOf] at hrti
  exact ⟨_, hrti, rfl, rfl, hB, hC, hZ, hI, hD, hV, hN⟩

end Sys2Proof.Proofs
end

section
/-! SUPPORT. The attached device (R350 to R358): which instructions can reach it, by their shape and their operand, and
what a load or a store of one of its registers does. -/

namespace Sys2Proof.Machine

open Sys2Proof.Spec

/-! ## The operand of an instruction that reads it -/

/-- The mnemonics that read their operand and do not write it (R174). -/
def readsOperand (mn : Mnemonic) : Bool :=
  match mn with
  | .adc | .sbc | .and | .ora | .eor | .cmp | .cpx | .cpy | .bit | .lda | .ldx | .ldy => true
  | _ => false

/-- The memory operand of a read operand; an immediate byte has none. -/
def sourceMem? : Source → Option MemOperand
  | .imm _ => none
  | .mem m => some m

/-- A reading instruction reads the operand that its slot and its operand bytes give (R124, R174). -/
theorem exec_readShape {i : Instr} {sl : Slot} (hslot : i.slot? = some sl) (hrd : readsOperand sl.mnemonic = true) :
    ∃ op src, Reading sl.mnemonic op ∧ operandOf i = sourceMem? src ∧ ∀ s, exec i s = .next (op src s) := by
  rw [operandOf_eq hslot]
  cases i <;> cases hslot <;> cases hrd
  all_goals
    simp only [memOperand?, encode, List.getD_cons_succ, List.getD_cons_zero, mkWord_hiByte_loByte]
    exact ⟨_, _, by constructor, by constructor, fun _ => rfl⟩

/-- A mnemonic of JMP is that of one of its two forms. -/
theorem eq_of_mnemonic_jmp {i : Instr} {sl : Slot} (hslot : i.slot? = some sl) (hjmp : sl.mnemonic = .jmp) :
    (∃ target, i = .jmpAbs target) ∨ ∃ ptr, i = .jmpInd ptr := by
  cases i <;> cases hslot <;> cases hjmp
  · exact .inl ⟨_, rfl⟩
  · exact .inr ⟨_, rfl⟩

/-- What an instruction that reads or stores its operand accesses: the effective address, where it has one. -/
theorem accessed_eq {i : Instr} {sl : Slot} (hslot : i.slot? = some sl)
    (h : readsOperand sl.mnemonic = true ∨ storesOperand sl.mnemonic = true) (s : State) :
    accessed i s = (operandOf i).toList.map (fun m => (effectiveAddr m s).1) := by
  unfold accessed
  split
  case h_4 => rfl
  all_goals cases hslot; simp [readsOperand, storesOperand] at h

/-! ## The device after an instruction -/

/-- The memory operand, if there is one, lies outside the window. -/
def InStorage (m : Option MemOperand) (s : State) : Prop := ∀ x ∈ m, inWindow (effectiveAddr x s).1 = false

section
variable {mn : Mnemonic} {md : Mode} {f : State → State}

/-- A reading operation reaches the device through its one read (R174). -/
theorem Reading.ps_eq {op : Source → State → State} (h : Reading mn op) {src : Source} {s : State}
    (hsrc : InStorage (sourceMem? src) s) : (op src s).ps = s.ps := by
  have hread : (op src s).ps = (loadOperand src s).2.ps := by cases h <;> rfl
  rw [hread]
  cases src with
  | imm b1 => rfl
  | mem m => rw [loadOperand_mem, memRead_storage (hsrc m rfl)]

/-- A modifying operation is `modifyOperand` with an operation that leaves the device alone (R207). -/
theorem Modifying.exists_act_ps {op : Place → State → State} (h : Modifying mn op) :
    ∃ act, (∀ p s, op p s = modifyOperand p act s) ∧ ∀ v s, (act v s).2.ps = s.ps := by
  cases h
  case inc | dec => exact ⟨_, fun _ _ => rfl, fun _ _ => rfl⟩
  all_goals exact ⟨_, fun p s => Eq.trans (b := shift _ p s) rfl rfl, fun _ _ => rfl⟩

/-- A storing operation reaches the device through its one write, a modifying one through its read and its write. -/
theorem StoreShape.ps_eq {m : Option MemOperand} (h : StoreShape m f) {s : State} (hm : InStorage m s) :
    (f s).ps = s.ps := by
  cases h with
  | store h dst =>
    obtain ⟨-, reg, hop, -⟩ := h.exists_register
    rw [hop, storeOperand_eq, advance_ps, memWrite_storage_ps (hm dst rfl)]
  | modifyAcc h => cases h <;> rfl
  | modifyMem h m =>
    obtain ⟨act, hop, hact⟩ := h.exists_act_ps
    have hw := hm m rfl
    simp only [hop, modifyOperand, loadPlace_mem, memRead_storage hw, Machine.storeResult, advance_ps, setZN_ps,
      memWrite_storage_ps hw, hact]

/-- The other operations, but JMP, access nothing outside page 1 and the vectors (R358). -/
theorem ps_of_shape (h : Shape mn md f) (hrd : readsOperand mn = false) (hst : storesOperand mn = false)
    (hjmp : mn ≠ .jmp) (s : State) : (f s).ps = s.ps := by
  cases h with
  | read h => cases h <;> cases hrd
  | store h | modifyAcc h | modifyMem h => exact absurd h.stores (by simp [hst])
  | jmpInd addr => exact absurd rfl hjmp
  | branch h b1 => simp [branch_eq]
  | register h => cases h <;> rfl
  | pha => simp [pha, push_eq]
  | php => simp [php, push_eq]
  | jsr addr => simp [callSubroutine, pushWord, push_eq]
  | pla => simp [pla, pop_eq]
  | plp => simp [plp, pop_eq]
  | rts => simp [rtsOp, popWord_eq]
  | rti => simp [returnFromHandler_eq]
  | brk => simp [brkOp, enterHandler_eq]

end

/-- JMP indirect reaches the device through its two pointer reads (R171). -/
theorem jmp_indirectTarget_ps {ptr : Word} {s : State} (hlo : inWindow ptr = false)
    (hhi : inWindow (samePageNext ptr) = false) : (jmp (indirectTarget ptr s)).ps = s.ps := by
  rw [indirectTarget_eq, memRead_storage hlo, memRead_storage hhi]
  rfl

/-! ## The registers of the device -/

/-- LDA from an address of the window: A takes the byte the device returns (R76, R280). -/
theorem exec_ldaAbs_window {a : Word} (ha : inWindow a = true) (s : State) :
    exec (.ldaAbs a) s = .next (advance 3 (setZN (periphRead a s.ps).1
      { s with A := (periphRead a s.ps).1, ps := (periphRead a s.ps).2 })) := by
  refine congrArg Host.Outcome.next (?_ : lda (.mem (.abs a)) s = _)
  rw [lda, readOperand, loadOperand_mem, effectiveAddr, memRead_window ha]
  rfl

/-- A store to an address of the window but $4014: the device takes the byte (R76). -/
theorem storeOperand_window {a : Word} (ha : inWindow a = true) (hdma : a ≠ 0x4014#16) (v : Byte) (s : State) :
    storeOperand (.abs a) v s = advance 3 { s with ps := periphWrite a v s.ps } := by
  rw [storeOperand_eq, effectiveAddr, memWrite_window ha hdma]
  rfl

theorem exec_staAbs_window {a : Word} (ha : inWindow a = true) (hdma : a ≠ 0x4014#16) (s : State) :
    exec (.staAbs a) s = .next (advance 3 { s with ps := periphWrite a s.A s.ps }) :=
  congrArg Host.Outcome.next (storeOperand_window ha hdma s.A s)

theorem exec_stxAbs_window {a : Word} (ha : inWindow a = true) (hdma : a ≠ 0x4014#16) (s : State) :
    exec (.stxAbs a) s = .next (advance 3 { s with ps := periphWrite a s.X s.ps }) :=
  congrArg Host.Outcome.next (storeOperand_window ha hdma s.X s)

/-- A read of the data port below the palette region returns the read-ahead byte (R356). -/
theorem readData_of_below {p : Periph} (h : p.addr < Config.paletteStart) :
    p.readData = (p.buf, { p with
      buf := Config.deviceMemory p.addr p.history, addr := p.addr + Config.dataPortAdvance p.history }) :=
  if_pos (decide_eq_true h)

/-- In the palette region it returns the byte of the device memory. -/
theorem readData_of_not_below {p : Periph} (h : ¬p.addr < Config.paletteStart) :
    p.readData = (Config.deviceMemory p.addr p.history, { p with
      buf := Config.bufferAfterPalette p.history, addr := p.addr + Config.dataPortAdvance p.history }) :=
  if_neg (ne_true_of_eq_false (decide_eq_false h))

/-- Both halves of a word replaced, in either order: nothing of the word stays (R355). -/
theorem replace_high_then_low (w : Word) (hi lo : Byte) :
    ((w &&& 0x00FF#16) ||| (hi.setWidth 16 <<< 8)) &&& 0xFF00#16 ||| lo.setWidth 16 = mkWord hi lo := by
  rw [mkWord]
  apply BitVec.eq_of_getElem_eq
  intro i hlt
  interval_cases i <;> simp

theorem replace_low_then_high (w : Word) (hi lo : Byte) :
    ((w &&& 0xFF00#16) ||| lo.setWidth 16) &&& 0x00FF#16 ||| (hi.setWidth 16 <<< 8) = mkWord hi lo := by
  rw [mkWord]
  apply BitVec.eq_of_getElem_eq
  intro i hlt
  interval_cases i <;> simp

/-- The two writes of the address port (R355): one gives the high half and the other the low half. -/
theorem writeAddress_writeAddress {p : Periph} (h : p.addrSecond = false) (v w : Byte) :
    ((p.writeAddress v).writeAddress w).addr = if Config.highHalfFirst then mkWord v w else mkWord w v := by
  cases hfirst : Config.highHalfFirst with
  | true => simp [Periph.writeAddress, h, hfirst, ← replace_high_then_low p.addr v w]
  | false => simp [Periph.writeAddress, h, hfirst, ← replace_low_then_high p.addr w v]

end Sys2Proof.Machine

namespace Sys2Proof.Proofs

open Sys2Proof.Machine Sys2Proof.Spec

/-- Settles O9: an instruction reaches the device through its operand alone, JMP indirect through its pointer. -/
theorem deviceChangesOnlyThroughTheWindow : Obligations.DeviceChangesOnlyThroughTheWindow := by
  intro i s
  obtain ⟨sl, f, hslot, hshape, hf⟩ := exec_shape i
  cases hrd : readsOperand sl.mnemonic with
  | true =>
    obtain ⟨op, src, hop, hsrc, hexec⟩ := exec_readShape hslot hrd
    refine ⟨_, hexec s, fun hout => hop.ps_eq fun m hm => hout _ ?_⟩
    rw [accessed_eq hslot (.inl hrd), hsrc]
    exact List.mem_map_of_mem (Option.mem_toList.mpr hm)
  | false =>
    cases hst : storesOperand sl.mnemonic with
    | true =>
      obtain ⟨g, hstore, hexec⟩ := exec_storeShape hslot hst
      refine ⟨_, hexec s, fun hout => hstore.ps_eq fun m hm => hout _ ?_⟩
      rw [accessed_eq hslot (.inr hst)]
      exact List.mem_map_of_mem (Option.mem_toList.mpr hm)
    | false =>
      by_cases hjmp : sl.mnemonic = .jmp
      · obtain ⟨target, rfl⟩ | ⟨ptr, rfl⟩ := eq_of_mnemonic_jmp hslot hjmp
        · exact ⟨_, rfl, fun _ => rfl⟩
        · refine ⟨_, rfl, fun hout => jmp_indirectTarget_ps (hout ptr ?_) (hout _ ?_)⟩ <;> simp [accessed]
      · exact ⟨f s, hf s, fun _ => ps_of_shape hshape hrd hst hjmp s⟩

/-- Settles O57: the load is one read of the status register. -/
theorem statusReadClearsVblank : Obligations.StatusReadClearsVblank := fun s =>
  ⟨_, exec_ldaAbs_window rfl s, rfl, rfl, rfl⟩

/-- Settles O59: the load is one read of the data port, which takes the byte from the buffer below the palette region
and from the device memory in it. -/
theorem dataPortReadsOneStepBehind : Obligations.DataPortReadsOneStepBehind := by
  intro s
  refine ⟨_, exec_ldaAbs_window rfl s, ?_⟩
  intro events
  by_cases h : s.ps.addr < Config.paletteStart
  · have hread : periphRead 0x2007 s.ps = _ := readData_of_below (p := s.ps.record (.read 0x2007)) h
    rw [if_pos h, hread]
    exact ⟨rfl, rfl, rfl, rfl⟩
  · have hread : periphRead 0x2007 s.ps = _ := readData_of_not_below (p := s.ps.record (.read 0x2007)) h
    rw [if_neg h, hread]
    exact ⟨rfl, rfl, rfl⟩

/-- Settles O60: each store is one write of the device, and a write of OAM replaces one byte. -/
theorem deviceRegisterWrites : Obligations.DeviceRegisterWrites := by
  intro s
  refine ⟨_, _, _, _, exec_staAbs_window rfl (by decide) s, exec_staAbs_window rfl (by decide) s,
    exec_staAbs_window rfl (by decide) s, exec_staAbs_window rfl (by decide) s, rfl, rfl, rfl, fun i => ?_⟩
  refine (Vector.getElem_set s.ps.oamAddr.isLt i.isLt).trans ?_
  exact if_congr eq_comm rfl rfl

/-- Settles O58: each of the two writes loads its half, whichever half that is. -/
theorem twoWritesLoadTheAddress : Obligations.TwoWritesLoadTheAddress := by
  intro s
  refine ⟨_, _, exec_staAbs_window rfl (by decide) s, exec_stxAbs_window rfl (by decide) _,
    fun hfirst => ⟨?_, ?_⟩, rfl⟩
  · show (!!s.ps.addrSecond) = false
    rw [hfirst]
    rfl
  · have haddr := writeAddress_writeAddress (p := s.ps.record (.write 0x2006 s.A)) hfirst s.A s.X
    rw [mkWord_eq_wordOf, mkWord_eq_wordOf] at haddr
    cases h : Config.highHalfFirst with
    | true => exact .inl (haddr.trans (if_pos h))
    | false => exact .inr (haddr.trans (if_neg (ne_true_of_eq_false h)))

end Sys2Proof.Proofs
end

section
/-! SUPPORT. The loader (R386): the cells of a bank after it is placed, and those outside. Then the bounds of a step's
cycle count (R401), from the metadata table. -/

namespace Sys2Proof.Machine

open Sys2Proof.Spec

/-! ## The loader -/

/-- A cell of a bank that was placed at `a`. -/
theorem get_setAll_bank (m : Memory) (a : Nat) (bank : Bank) {i : Nat} (hi : i < 16384) :
    Memory.get (Memory.setAll m a bank.toList) (a + i) = bank[i] := by
  rw [Memory.get_setAll, if_pos (Nat.le_add_right a i), Nat.add_sub_cancel_left, Vector.getElem?_toList,
    Vector.getElem?_eq_getElem hi]
  rfl

/-- A cell outside a bank that was placed at `a`. -/
theorem get_setAll_bank_outside (m : Memory) {a : Nat} (bank : Bank) {k : Nat} (hk : k < a ∨ a + 16384 ≤ k) :
    Memory.get (Memory.setAll m a bank.toList) k = Memory.get m k := by
  rw [Memory.get_setAll]
  split
  · rw [List.getElem?_eq_none (by rw [Vector.length_toList]; omega)]
    rfl
  · rfl

/-- Power-on with a cartridge leaves the storage the loader made (R380, R386). -/
theorem powerOnWith_mem (m : Memory) (bank0 : Bank) (bank1 : Option Bank) (device : Periph) :
    (powerOnWith m bank0 bank1 device).mem = loadBanks bank0 bank1 m := by
  rw [powerOnWith, powerOn, loadVector_mem]
  rfl

/-! ## Bounds of the cycle count -/

/-- The mnemonics of the conditional branches (R231 to R238). -/
def branches (mn : Mnemonic) : Bool :=
  match mn with
  | .bcc | .bcs | .beq | .bmi | .bne | .bpl | .bvc | .bvs => true
  | _ => false

theorem branchCondition_of_not_branches {mn : Mnemonic} (h : branches mn = false) (s : State) :
    branchCondition? mn s = none := by
  cases mn <;> cases h <;> rfl

/-- The most a slot can cost (R139): an extra cycle where it is marked, and two for a taken branch that crosses. -/
def maxCycles (sl : Slot) : Nat :=
  sl.baseCycles + (if sl.extraCycle then 1 else 0) + (if branches sl.mnemonic then 2 else 0)

/-- The table's rows cost between 2 and 7 cycles, extra cycles included. -/
theorem metadata_cycles_bounds :
    ∀ opc : Byte, (metadata opc).all (fun sl => decide (2 ≤ sl.baseCycles ∧ maxCycles sl ≤ 7)) = true := by
  decide +kernel

/-- An instruction costs at least the base cycles of its slot and at most its maximum (R139): the model fixes
`DMA_CYCLES` at 0. -/
theorem instrCycles_bounds (sl : Slot) (b1 b2 : Byte) (s : State) :
    sl.baseCycles ≤ instrCycles sl b1 b2 s ∧ instrCycles sl b1 b2 s ≤ maxCycles sl := by
  have hcrossing : (if sl.extraCycle && (memOperand? sl.mode b1 b2).any (crosses · s) then 1 else 0) ≤
      if sl.extraCycle then 1 else 0 := by
    cases sl.extraCycle with
    | false => exact Nat.le_refl 0
    | true => rw [Bool.true_and]; split <;> decide
  have htaken : (if branchCondition? sl.mnemonic s = some true then (if branchCrosses b1 s then 2 else 1) else 0) ≤
      if branches sl.mnemonic then 2 else 0 := by
    cases hb : branches sl.mnemonic with
    | false => rw [branchCondition_of_not_branches hb]; exact Nat.le_refl 0
    | true => cases branchCrosses b1 s <;> split <;> decide
  simp only [instrCycles, maxCycles, Config.dmaCycles, ite_self, Nat.add_zero]
  omega

/-- Every instruction costs 2 to 7 cycles in every state. -/
theorem cycles_bounds (i : Instr) (s : State) : 2 ≤ Instr.cycles i s ∧ Instr.cycles i s ≤ 7 := by
  obtain ⟨sl, -, hslot, -, -⟩ := exec_shape i
  have htable : 2 ≤ sl.baseCycles ∧ maxCycles sl ≤ 7 := by
    have h := metadata_cycles_bounds i.opcode
    rw [show metadata i.opcode = some sl from hslot] at h
    exact of_decide_eq_true h
  obtain ⟨hlow, hhigh⟩ := instrCycles_bounds sl ((encode i).getD 1 0) ((encode i).getD 2 0) s
  simp only [Instr.cycles, hslot]
  exact ⟨htable.1.trans hlow, hhigh.trans htable.2⟩

/-- A step that returns a cycle count has fetched an instruction and run it (R138, R321). -/
theorem stepCycles_some_cases {s : State} {n : Nat} (h : stepCycles s = some n) :
    ∃ i t u, fetch s = .next (i, t) ∧ exec i t = .next u := by
  rcases fetch_cases s with hfault | ⟨i, t, hfetch⟩
  · simp [stepCycles, hfault] at h
  · obtain ⟨-, f, -, -, hf⟩ := exec_shape i
    exact ⟨i, t, f t, hfetch, hf t⟩

end Sys2Proof.Machine

namespace Sys2Proof.Proofs

open Sys2Proof.Machine Sys2Proof.Spec

/-- Settles O14: the two banks do not overlap, and the Reset vector lies in the second. -/
theorem loaderPlacesBanks : Obligations.LoaderPlacesBanks := by
  intro m bank0 bank1 device s
  have hmem : s.mem = loadBanks bank0 bank1 m := powerOnWith_mem m bank0 bank1 device
  have hsecond : ∀ i (hi : i < 16384), Memory.get s.mem (0xC000 + i) = (bank1.getD bank0)[i] := by
    intro i hi
    rw [hmem, loadBanks, get_setAll_bank _ _ _ hi]
  refine ⟨fun i => ?_, fun i => hsecond i i.isLt, fun k hk => ?_, ?_⟩
  · rw [hmem, loadBanks, get_setAll_bank_outside _ _ (by omega), get_setAll_bank _ _ _ i.isLt]
    rfl
  · rw [hmem, loadBanks, get_setAll_bank_outside _ _ (by omega), get_setAll_bank_outside _ _ (by omega)]
  · have hPC := congrArg State.PC (powerOnState (loadBanks bank0 bank1 m) device)
    rw [← hmem] at hPC
    rw [← hsecond 16381 (by decide), ← hsecond 16380 (by decide)]
    exact hPC

/-- Settles O55: the instruction costs 2 to 7 cycles, and the service of a request 7 more. -/
theorem stepCostsTwoToFourteen : Obligations.StepCostsTwoToFourteen := by
  intro s n hn
  obtain ⟨i, t, u, hfetch, hexec⟩ := stepCycles_some_cases hn
  obtain ⟨-, hcount⟩ := cyclesOfAStep s t u i hfetch hexec
  obtain ⟨hlow, hhigh⟩ := cycles_bounds i t
  cases hn.symm.trans hcount
  split <;> omega

end Sys2Proof.Proofs
end
